-- ==== Sys2Proof/Word.lean ====
section
/-!
DEFINITION. The word types of the block, at the fixed widths of rule R8: 32-bit registers, counts and
arguments, 8-bit buffer elements, 5-bit symbol values, 6-bit reverse-table entries and 18-bit host
offsets. Bit 0 is the least significant bit of each (rule R10).
-/

namespace Sys2Proof

/-- A register, a command word, an argument or a count (R8: 32 bits). -/
abbrev Word := BitVec 32

/-- One buffer element (R8: one 8-bit byte). -/
abbrev Byte := BitVec 8

/-- A symbol value, 0 to 31 (R8, R15). -/
abbrev Symbol := BitVec 5

/-- An entry of the reverse table: INV is bit 5, IDX is bits 4:0 (R8, R111). -/
abbrev RevEntry := BitVec 6

/-- A byte offset on the host port (R8, R60: 18 bits). -/
abbrev Offset := BitVec 18

end Sys2Proof
end

