-- ==== Sys2Proof/Syntax.lean ====
section
/-!
DEFINITION. The instructions of the block, one constructor per row of `spec/opcode_table.json`, and
the fields of the one instruction format, the 32-bit command word (rules R90 and R91).
-/

namespace Sys2Proof

/-- A command (R91). The command word carries no operand: operands come from ARG0, ARG1 and IBUF, as
latched at the command's start (R93, R94). -/
inductive Instr where
  /-- ENCODE, 0x00000001 (R140). -/
  | encode
  /-- DECODE, 0x00000002 (R170). -/
  | decode
  /-- ENC_SIZE, 0x00000003 (R190). -/
  | encSize
  /-- DEC_SIZE, 0x00000004 (R191). -/
  | decSize
  /-- LUT_FWD, 0x00000005 (R115). -/
  | lutFwd
  /-- LUT_REV, 0x00000006 (R116). -/
  | lutRev
  deriving DecidableEq, Repr

/-- The two fields of a command word (R90): OP in bits 3:0 and RSV in bits 31:4. -/
structure CommandFields where
  op : BitVec 4
  rsv : BitVec 28
  deriving DecidableEq, Repr

end Sys2Proof
end

