-- ==== Sys2Proof/WellFormed.lean ====
section
/-!
DEFINITION. Which command words and instructions are well-formed (rule R92). An instruction has no
operand fields, so every `Instr` is well-formed; the check that can fail is the one on the fields of a
command word.
-/

namespace Sys2Proof

/-- R92: OP names a command when it is in 0x1 to 0x6. -/
def CommandFields.opDefined (f : CommandFields) : Bool :=
  decide (1 ≤ f.op.toNat) && decide (f.op.toNat ≤ 6)

/-- R92: the reserved bits 31:4 must all be 0. -/
def CommandFields.rsvZero (f : CommandFields) : Bool := f.rsv == 0

/-- R92: a command word is legal exactly when its reserved bits are 0 and its OP is in 0x1 to 0x6. -/
def CommandFields.wf (f : CommandFields) : Bool := f.rsvZero && f.opDefined

/-- R93: a command carries no immediate and no register field, so there is nothing about an
instruction that could be out of range. -/
def Instr.wf : Instr → Bool
  | .encode => true
  | .decode => true
  | .encSize => true
  | .decSize => true
  | .lutFwd => true
  | .lutRev => true

end Sys2Proof
end

