-- ==== Sys2Proof/Decode.lean ====
section
/-!
DEFINITION. From a command word to an instruction, total and rejecting by name, and back (rules R90
to R92). A command word is exactly 32 bits and comes in one 32-bit write (R90), so there is no
byte order and no length to decode.
-/

namespace Sys2Proof

/-- Why a command word names no command (R92). The machine does not stop on such a word: it completes
it with ILLEGAL_COMMAND (R203). -/
inductive DecodeError where
  /-- A bit of RSV, bits 31:4, is not 0. -/
  | reservedBits
  /-- RSV is 0 and OP is 0x0 or in 0x7 to 0xF. -/
  | reservedOp
  deriving DecidableEq, Repr

/-- What the decoder makes of a command word. -/
inductive Decoded where
  /-- The word names this command. -/
  | command (i : Instr)
  /-- The word is illegal, for this reason. -/
  | illegal (why : DecodeError)
  deriving DecidableEq, Repr

/-- R90: the fields of a command word. -/
def fieldsOf (w : Word) : CommandFields :=
  { op := w.extractLsb' 0 4, rsv := w.extractLsb' 4 28 }

/-- R90: the command word with these fields. -/
def wordOf (f : CommandFields) : Word := f.rsv ++ f.op

/-- The decoder (R91, R92): the whole 32-bit word selects the command. -/
def decode (w : Word) : Decoded :=
  if (fieldsOf w).rsvZero then
    match (fieldsOf w).op.toNat with
    | 1 => .command .encode
    | 2 => .command .decode
    | 3 => .command .encSize
    | 4 => .command .decSize
    | 5 => .command .lutFwd
    | 6 => .command .lutRev
    | _ => .illegal .reservedOp
  else .illegal .reservedBits

/-- The command a word names, if it names one. -/
def Decoded.instr? : Decoded → Option Instr
  | .command i => some i
  | .illegal _ => none

/-- The OP code of a command (R91). -/
def opCode : Instr → BitVec 4
  | .encode => 0x1
  | .decode => 0x2
  | .encSize => 0x3
  | .decSize => 0x4
  | .lutFwd => 0x5
  | .lutRev => 0x6

/-- The encoder: the command word of a command, its RSV bits 0 (R90, R91). -/
def encode (i : Instr) : Word := wordOf { op := opCode i, rsv := 0 }

/-- The instruction the decoder reads from a table word of `nbits` bits, numbered as the opcode table
numbers them. Bits from `nbits` up are 0; a word that does not fit in the 32 bits of CMD is none the
host port can deliver (R90). -/
def decodeTableWord (nbits w : Nat) : Option Instr :=
  if w % 2 ^ nbits < 2 ^ 32 then (decode (BitVec.ofNat 32 (w % 2 ^ nbits))).instr? else none

end Sys2Proof
end

