-- ==== Sys2Proof/Machine/Bits.lean ====
section
/-!
DEFINITION. The bit-field and byte-order helpers: the MSB-first packing of the stream (rules R11 and
R69) and the little-endian lanes of a 32-bit buffer access (rule R65).
-/

namespace Sys2Proof.Machine

/-- R11, R132: `w` stream bits as one number, the first bit of the stream the most significant. -/
def packBits : (w : Nat) → (Nat → Bool) → BitVec w
  | 0, _ => 0#0
  | w + 1, f => BitVec.cons (f 0) (packBits w (fun j => f (j + 1)))

/-- R11: stream bit `i` of a byte sequence is bit `7 - (i mod 8)` of byte `i div 8`. -/
def streamBit (bytes : Nat → Byte) (i : Nat) : Bool := (bytes (i / 8)).getLsbD (7 - i % 8)

/-- R65: four bytes as a 32-bit word, the byte at the lowest index in bits 7:0. -/
def wordOfLanes (b : Nat → Byte) (i : Nat) : Word := b (i + 3) ++ b (i + 2) ++ b (i + 1) ++ b i

/-- R65: lane `j` of a 32-bit word, bits `8j+7` to `8j`. -/
def laneOfWord (w : Word) (j : Nat) : Byte := w.extractLsb' (8 * j) 8

/-- R12: `zext_32` of a byte. -/
def zext32 (b : Byte) : Word := b.setWidth 32

end Sys2Proof.Machine
end

