-- ==== Sys2Proof/Machine/Rom.lean ====
section
/-!
DEFINITION. The alphabet ROM (rules R35, R110 and R111): constants, valid from power-up, with no write
path and no reset (R114).
-/

namespace Sys2Proof.Machine

/-- R110: the ASCII codes of `ybndrfg8ejkmcpqxot1uwisza345h769`, in index order. -/
def alphabet : List Byte :=
  [0x79, 0x62, 0x6E, 0x64, 0x72, 0x66, 0x67, 0x38] ++
  [0x65, 0x6A, 0x6B, 0x6D, 0x63, 0x70, 0x71, 0x78] ++
  [0x6F, 0x74, 0x31, 0x75, 0x77, 0x69, 0x73, 0x7A] ++
  [0x61, 0x33, 0x34, 0x35, 0x68, 0x37, 0x36, 0x39]

/-- R110: the forward table, FWD[i]. -/
def fwd (i : Symbol) : Byte := alphabet.getD i.toNat 0

/-- R111: the INVALID entry, INV = 1 and IDX = 0. -/
def invalidEntry : RevEntry := 0x20

/-- R111: the reverse table, REV[b]. A byte is matched exactly, with no case folding (R113). -/
def rev (b : Byte) : RevEntry :=
  match alphabet.findIdx? (fun a => a == b) with
  | some i => BitVec.ofNat 6 i
  | none => invalidEntry

/-- R111: the INV flag of an entry. -/
def entryInv (e : RevEntry) : Bool := e.getLsbD 5

/-- R111: the IDX field of an entry. -/
def entryIdx (e : RevEntry) : Symbol := e.extractLsb' 0 5

end Sys2Proof.Machine
end

