-- ==== Sys2Proof/Config.lean ====
section
/-!
DEFINITION. What one implementation fixes (the OPEN parameters of `92_eei_decisions.md`) and the free
values. Every constant here is opaque and has no body: nothing can be proved of its value, so a
statement that mentions one holds whatever the implementation chose.
-/

namespace Sys2Proof

/-- How many bytes IBUF is short of the largest legal capacity. It only serves to give
`Config.ibufBytes` its legal range (R6). -/
opaque Config.ibufShortfall : Fin 65536

/-- How many bytes OBUF is short of the largest legal capacity (R6). -/
opaque Config.obufShortfall : Fin 65536

/-- `IBUF_BYTES` (R6, D6): OPEN, any value from 1 to 65536. -/
def Config.ibufBytes : Nat := 65536 - Config.ibufShortfall.val

/-- `OBUF_BYTES` (R6, D6): OPEN, any value from 1 to 65536. -/
def Config.obufBytes : Nat := 65536 - Config.obufShortfall.val

/-- `BLOCK_BASE` (R8, D2, I12): where the platform puts the block. No rule reads it: the block decodes
offsets only. -/
opaque Config.blockBase : Nat

/-- `LATENCY(op, args) - 1` (R9, R252, D18): how many further steps pass between a command's start and
the step that completes it. The first argument is the number of the command start, so that two starts
of one command need not take the same time; the others are the command word, ARG0 and ARG1. -/
opaque Config.extraLatency : Nat → Word → Word → Word → Nat

/-- A FREE VALUE (R242, I3): what IBUF byte `i` holds in reset epoch `e` before anything is written
to it. Arguments: the epoch, then the byte's index. -/
opaque Config.unwrittenIbuf : Nat → Nat → Byte

/-- A FREE VALUE (R242, I3): what OBUF byte `i` holds in reset epoch `e` before a command writes it. -/
opaque Config.unwrittenObuf : Nat → Nat → Byte

/-- A FREE VALUE (I9): the hidden datapath cursor between commands, after the given number of command
starts. The parts are the symbol index, the byte cursor and the partial output byte. DESIGN CHOICE
(notes/assumptions/5.md): the first two are numbers of no fixed width. -/
opaque Config.idleCursor : Nat → Nat × Nat × Byte

end Sys2Proof
end

