-- ==== Sys2Proof/Machine/State.lean ====
section
/-!
DEFINITION. The state of the block as plain data (rule R47), the host accesses and other inputs that
reach it (rules R13, R16, R60, R240), why a step can stop, and the state after reset (rule R241).
-/

namespace Sys2Proof.Machine

/-- STATUS.ERR (R24, R200). Codes 4 to 15 are never produced, so they have no constructor. -/
inductive ErrCode where
  /-- 0 NONE: the last completion succeeded, or the error was acknowledged. -/
  | noError
  /-- 1 INVALID_ARGUMENT (R201). -/
  | invalidArgument
  /-- 2 INVALID_SYMBOL (R202). -/
  | invalidSymbol
  /-- 3 ILLEGAL_COMMAND (R203). -/
  | illegalCommand
  deriving DecidableEq, Repr

/-- Why an operand is rejected; ERRINFO of an INVALID_ARGUMENT completion names one of these (R201). -/
inductive ArgumentError where
  /-- 1 INPUT_RANGE: the input does not fit IBUF. -/
  | inputRange
  /-- 2 OUTPUT_RANGE: the output would not fit OBUF. -/
  | outputRange
  /-- 3 LUT_RANGE: the lookup index is outside the table. -/
  | lutRange
  deriving DecidableEq, Repr

/-- The outcome of `Exec` (R95, R96). -/
inductive CommandResult where
  /-- Success: the value for RESULT and the OBUF bytes to write, as (index, byte) pairs. -/
  | ok (res : Word) (writes : List Host.Cell)
  /-- Failure: the values for STATUS.ERR and ERRINFO. -/
  | err (code : ErrCode) (info : Word)
  deriving DecidableEq, Repr

/-- The contents of a buffer: (index, byte) pairs with strictly rising indices. An index that is not
listed has not been written since the last reset (`none` in R47). -/
abbrev Memory := List Host.Cell

/-- The pending-command latch (R39) with the number of steps that still pass before the completion
step (R252). R39's `op` is bits 3:0 of `cmdword`; see `Pending.op`. -/
structure Pending where
  cmdword : Word
  arg0 : Word
  arg1 : Word
  /-- MODEL: what is left of `LATENCY(op, args)`. At 0 the next step of the core completes. -/
  wait : Nat
  deriving DecidableEq, Repr

/-- R39: the latched operation code. -/
def Pending.op (p : Pending) : BitVec 4 := p.cmdword.extractLsb' 0 4

/-- The hidden datapath cursor (R40): the symbol index, the input-byte or output-byte cursor, and the
partial output byte of DECODE. No host access reads it. DESIGN CHOICE (notes/assumptions/5.md): R40 gives
the widths of the first two only as "up to" 32 and 17 bits; here both are natural numbers. -/
structure Cursor where
  k : Nat
  c : Nat
  partialByte : Byte
  deriving DecidableEq, Repr

/-- R40: the phase is the symbol index modulo 8. -/
def Cursor.phase (q : Cursor) : Nat := q.k % 8

/-- R21: the cursor starts at 0 for each command; R165: the partial byte starts at 0x00. -/
def Cursor.start : Cursor := { k := 0, c := 0, partialByte := 0 }

/-- The direction of a host access (R13: MemRead or MemWrite). -/
inductive Dir where
  | read
  | write
  deriving DecidableEq, Repr

/-- The width of a host access. R64: the block serves 8 and 32 bits; 16 and 64 are bus errors. -/
inductive Width where
  | w8
  | w16
  | w32
  | w64
  deriving DecidableEq, Repr

/-- One host access (R13, R60, R101). `data` is what a write carries: all of it at 32 bits, bits 7:0
at 8 bits. A read ignores it. -/
structure Access where
  dir : Dir
  width : Width
  offset : Offset
  data : Word
  deriving DecidableEq, Repr

/-- The answer to one host access (R66): the data of a read, and whether it is the error response. A
write answers with data 0. -/
structure Response where
  data : Word
  error : Bool
  deriving DecidableEq, Repr

/-- What the world outside the block does at one step. -/
inductive Input where
  /-- The host issues an access. -/
  | access (a : Access)
  /-- The host is in its `wait` loop (R100): it reads STATUS and stays in the loop while BUSY is 1. -/
  | pollBusy
  /-- The host issues nothing during this step. -/
  | idle
  /-- The reset input `rst` is asserted (R240). -/
  | reset
  deriving DecidableEq, Repr

/-- Why a step stops with a fault. An error of a command is no fault of the machine: it is a completion
with an ERR code (R205). A bus error is no fault either: it is the response of one access (R66). -/
inductive Fault where
  /-- Raised by every meaning when the latch is empty: completion is enabled only while a command is
  pending (R95). Safe, and `step` never reaches it, since `step` runs a meaning only for a pending
  command. -/
  | noPendingCommand
  deriving DecidableEq, Repr

/-- Why a step is refused. -/
inductive Refusal where
  /-- Raised by an arm of `exec` that has no meaning yet. Safe. No arm is in that state. -/
  | notModelled (mnemonic : String)
  deriving DecidableEq, Repr

/-- The whole state (R47), with the two capacities that configure the block, the hidden cursor (R40),
and what the model needs to take the host's side and the open values as data. -/
structure State where
  /-- IBUF_BYTES, read as IBUF_SIZE (R6, R29). No step changes it. -/
  ibufBytes : Nat
  /-- OBUF_BYTES, read as OBUF_SIZE (R6, R30). No step changes it. -/
  obufBytes : Nat
  /-- CMD (R23): the last stored command word, legal or not. -/
  cmd : Word
  /-- STATUS.BUSY (R24, R38). -/
  busy : Bool
  /-- STATUS.DONE (R24, R38). -/
  done : Bool
  /-- STATUS.ERR (R24, R38). -/
  err : ErrCode
  /-- STATUS.BUSYWR (R24, R38). -/
  busywr : Bool
  /-- ARG0 (R26). -/
  arg0 : Word
  /-- ARG1 (R27). -/
  arg1 : Word
  /-- RESULT (R28). -/
  result : Word
  /-- ERRINFO (R32). -/
  errinfo : Word
  /-- INTEN.DONE_IE (R33). -/
  doneIe : Bool
  /-- The input buffer (R36), by byte index. -/
  ibuf : Memory
  /-- The output buffer (R37), by byte index. -/
  obuf : Memory
  /-- The pending-command latch (R39): `none` exactly when BUSY is 0. -/
  pending : Option Pending
  /-- The hidden datapath cursor (R40). -/
  cursor : Cursor
  /-- MODEL: what the host and the reset input will do, oldest first. -/
  inputs : List Input
  /-- MODEL: the response of the last host access (R66), if there was one since the last reset. -/
  response : Option Response
  /-- MODEL: counts resets; it selects the free contents of unwritten buffer bytes (R242). -/
  epoch : Nat
  /-- MODEL: counts command starts; it selects the free latency (R252) and the free idle cursor (I9). -/
  starts : Nat
  deriving DecidableEq, Repr

/-- R241: the state right after reset. The capacities are the implementation's constants. The cursor is
unspecified there (R241); 0 is the model's choice. -/
def State.reset : State :=
  { ibufBytes := Config.ibufBytes
    obufBytes := Config.obufBytes
    cmd := 0
    busy := false
    done := false
    err := .noError
    busywr := false
    arg0 := 0
    arg1 := 0
    result := 0
    errinfo := 0
    doneIe := false
    ibuf := []
    obuf := []
    pending := none
    cursor := Cursor.start
    inputs := []
    response := none
    epoch := 0
    starts := 0 }

end Sys2Proof.Machine
end

