-- ==== Sys2Proof/Machine/Ops.lean ====
section
/-!
DEFINITION. The shared operations: reading and writing a buffer, starting a command (rule R94),
completing it (rule R95), the error completion that stands in place of trap entry (rule R205), the
acknowledge that stands in place of trap return (rule R207), a dropped write (rule R45), and the
reset event (rules R240 and R241).
-/

namespace Sys2Proof.Machine

/-! ### Buffers -/

/-- The byte stored at index `a`, or `none` if it was not written since reset (R47). -/
def Memory.get? : Memory → Nat → Option Byte
  | [], _ => none
  | (b, v) :: rest, a => if a = b then some v else Memory.get? rest a

/-- Stores a byte, keeping the indices strictly rising. -/
def Memory.set : Memory → Nat → Byte → Memory
  | [], a, v => [(a, v)]
  | (b, u) :: rest, a, v =>
    if a < b then (a, v) :: (b, u) :: rest
    else if a = b then (a, v) :: rest
    else (b, u) :: Memory.set rest a v

/-- R95: performs the writes of a list in order. -/
def Memory.setAll (m : Memory) (writes : List Host.Cell) : Memory :=
  writes.foldl (fun acc c => Memory.set acc c.1 c.2) m

/-- The canonical form of a buffer of `cap` bytes: indices strictly rising and all inside the buffer.
An unlisted index holds no written value, so no entry can equal what it reads as. -/
abbrev Memory.wf (cap : Nat) (m : Memory) : Prop :=
  m.Pairwise (fun x y => x.1 < y.1) ∧ ∀ c ∈ m, c.1 < cap

/-- IBUF[i] (R36, R61). A byte that was not written since reset has the free value of this reset epoch,
the same at every read (R242, I3). -/
def State.ibufByte (s : State) (i : Nat) : Byte :=
  match s.ibuf.get? i with
  | some v => v
  | none => Config.unwrittenIbuf s.epoch i

/-- OBUF[i] as stored (R37, R62), with the free value where it was not written since reset. What the
host sees while BUSY is 1 is decided in the host port (R67). -/
def State.obufByte (s : State) (i : Nat) : Byte :=
  match s.obuf.get? i with
  | some v => v
  | none => Config.unwrittenObuf s.epoch i

/-! ### The numbers of the error codes -/

/-- R200: the STATUS.ERR code. -/
def ErrCode.bits : ErrCode → BitVec 4
  | .noError => 0
  | .invalidArgument => 1
  | .invalidSymbol => 2
  | .illegalCommand => 3

/-- R201: ERRINFO of an INVALID_ARGUMENT completion. -/
def ArgumentError.info : ArgumentError → Word
  | .inputRange => 1
  | .outputRange => 2
  | .lutRange => 3

/-- R201: the outcome of a command that rejects its operands. -/
def rejectArgument (e : ArgumentError) : CommandResult := .err .invalidArgument e.info

/-! ### The life of a command -/

/-- R94: a command starts. The latch takes the word and the operands as they stand. STATUS.BUSYWR,
RESULT, INTEN, IBUF and OBUF are unchanged. The cursor starts at 0 (R21). -/
def State.startCommand (s : State) (w : Word) : State :=
  { s with
    cmd := w
    pending := some
      { cmdword := w
        arg0 := s.arg0
        arg1 := s.arg1
        wait := Config.extraLatency s.starts w s.arg0 s.arg1 }
    busy := true
    done := false
    err := .noError
    errinfo := 0
    cursor := Cursor.start
    starts := s.starts + 1 }

/-- I9: the free value of the cursor between commands. -/
def freeCursor (starts : Nat) : Cursor :=
  { k := (Config.idleCursor starts).1
    c := (Config.idleCursor starts).2.1
    partialByte := (Config.idleCursor starts).2.2 }

/-- R95: what every completion does, success or error. -/
def State.finishCommand (s : State) : State :=
  { s with busy := false, done := true, pending := none, cursor := freeCursor s.starts }

/-- R205: an error completion. RESULT, OBUF, IBUF, CMD, ARG0, ARG1, INTEN and STATUS.BUSYWR are
unchanged; control goes to no vector. -/
def State.takeError (s : State) (code : ErrCode) (info : Word) : State :=
  { s with err := code, errinfo := info }.finishCommand

/-- R95: a successful completion writes OBUF and RESULT and sets ERR to 0. -/
def State.commitResult (s : State) (res : Word) (writes : List Host.Cell) : State :=
  { s with obuf := s.obuf.setAll writes, result := res, err := .noError }.finishCommand

/-- R95: the completion step for an outcome of `Exec`. -/
def State.completeWith (s : State) : CommandResult → State
  | .ok res writes => s.commitResult res writes
  | .err code info => s.takeError code info

/-- R203: the completion of a command word that names no command. -/
def State.completeIllegal (s : State) (w : Word) : State := s.takeError .illegalCommand w

/-- R25, R207: the host acknowledges a completion by writing STATUS with bit 1 set. ERRINFO keeps its
value. There is no other state to restore. -/
def State.acknowledge (s : State) : State := { s with done := false, err := .noError }

/-- R45: a host write is dropped because BUSY is 1. -/
def State.dropWrite (s : State) : State := { s with busywr := true }

/-- One step of the delay before completion passes (R252). -/
def State.elapse (s : State) : State :=
  { s with pending := s.pending.map (fun p => { p with wait := p.wait - 1 }) }

/-- R26: ARG0 is stored. -/
def State.withArg0 (s : State) (w : Word) : State := { s with arg0 := w }

/-- R27: ARG1 is stored. -/
def State.withArg1 (s : State) (w : Word) : State := { s with arg1 := w }

/-- MODEL: the inputs still to come. -/
def State.withInputs (s : State) (inputs : List Input) : State := { s with inputs := inputs }

/-- MODEL: the record of the response to a host access. -/
def State.withResponse (s : State) (r : Response) : State := { s with response := some r }

/-! ### Reset -/

/-- R240, R241: the reset event. A command in progress is abandoned; the buffers' contents are
unspecified again, under a new epoch (R242); the capacities, being constants, stay. -/
def State.resetEvent (s : State) : State :=
  { State.reset with
    ibufBytes := s.ibufBytes
    obufBytes := s.obufBytes
    inputs := s.inputs
    epoch := s.epoch + 1
    starts := s.starts }

end Sys2Proof.Machine
end

