-- ==== Sys2Proof/Machine/Operands.lean ====
section
/-!
DEFINITION. The operands of a command (rule R93): the latched ARG0 and ARG1 as natural numbers, and
IBUF. There is no other operand form: no immediates and no addressing modes.
-/

namespace Sys2Proof.Machine

/-- R93: the first operand, an unsigned 32-bit number zero-extended to a natural number. -/
abbrev Pending.operand0 (p : Pending) : Nat := p.arg0.toNat

/-- R93: the second operand, used by ENCODE only (R27). -/
abbrev Pending.operand1 (p : Pending) : Nat := p.arg1.toNat

/-- R39, R95: runs a command on the latched operands and completes it in one step (R97). Completion is
enabled only while a command is pending. -/
def State.runLatched (s : State) (f : Pending → CommandResult) :
    Host.Outcome State Fault Refusal :=
  match s.pending with
  | some p => .next (s.completeWith (f p))
  | none => .fault .noPendingCommand

end Sys2Proof.Machine
end

