-- ==== Sys2Proof/Machine/Sizing.lean ====
section
/-!
DEFINITION. The sizing functions and the commands ENC_SIZE and DEC_SIZE (`43_sizing.md`, rules R190 to
R192). Neither command fails, and neither reads IBUF or writes OBUF.
-/

namespace Sys2Proof.Machine

/-- R130, R190: the number of symbols for `bits` bits, `ceil(bits / 5)`, on natural numbers. -/
def encSize (bits : Nat) : Nat := (bits + 4) / 5

/-- R162: the jump table J, the decoded bytes of a last partial group of `r` symbols. -/
def jumpTable : List Nat := [0, 1, 2, 2, 3, 4, 4, 5]

/-- R162, R191: the number of bytes for `s` symbols, by the jump table (C1). -/
def decSize (s : Nat) : Nat := 5 * (s / 8) + jumpTable.getD (s % 8) 0

/-- R190: ENC_SIZE. -/
def encSizeResult (bits : Nat) : CommandResult := .ok (BitVec.ofNat 32 (encSize bits)) []

/-- R191: DEC_SIZE. -/
def decSizeResult (s : Nat) : CommandResult := .ok (BitVec.ofNat 32 (decSize s)) []

/-- R190: the meaning of ENC_SIZE. -/
def execEncSize (s : State) : Host.Outcome State Fault Refusal :=
  s.runLatched (fun p => encSizeResult p.operand0)

/-- R191: the meaning of DEC_SIZE. -/
def execDecSize (s : State) : Host.Outcome State Fault Refusal :=
  s.runLatched (fun p => decSizeResult p.operand0)

end Sys2Proof.Machine
end

