-- ==== Sys2Proof/Machine/Decoder.lean ====
section
/-!
DEFINITION. The decoder unit and the command DECODE (`42_decode.md`, rules R160 to R163 and R170), as a
function of the bit stream. The phase-table datapath of rule R164 is in Machine/Datapath.lean.
`ib` is IBUF as a function of the byte index and `count` the symbol count.
-/

namespace Sys2Proof.Machine

/-- R161: symbol `k` is invalid when its reverse-table entry has INV set. -/
def symbolInvalid (ib : Nat → Byte) (k : Nat) : Bool := entryInv (rev (ib k))

/-- R161: the value of symbol `k`, the IDX field of its entry. -/
def symbolValue (ib : Nat → Byte) (k : Nat) : Symbol := entryIdx (rev (ib k))

/-- R161, R202: the least index of an invalid symbol among the first `count`. -/
def firstInvalid (ib : Nat → Byte) (count : Nat) : Option Nat :=
  (List.range count).find? (symbolInvalid ib)

/-- R163: the output bit D(i): a bit of a symbol, or a pad bit 0 past the last one (R165). -/
def outputBit (ib : Nat → Byte) (count i : Nat) : Bool :=
  if i < 5 * count then (symbolValue ib (i / 5)).getLsbD (4 - i % 5) else false

/-- R163: output byte `b`, D(8b) to D(8b+7), the first of them bit 7. -/
def outByte (ib : Nat → Byte) (count b : Nat) : Byte :=
  packBits 8 (fun j => outputBit ib count (8 * b + j))

/-- R170: the OBUF writes of a decoding to `n` bytes. -/
def decodeWrites (ib : Nat → Byte) (count n : Nat) : List Host.Cell :=
  (List.range n).map (fun b => (b, outByte ib count b))

/-- R170: DECODE on buffers of the given capacities: the argument checks, then the symbol scan (R210). -/
def decodeResult (ibufBytes obufBytes : Nat) (ib : Nat → Byte) (count : Nat) : CommandResult :=
  if ibufBytes < count then rejectArgument .inputRange
  else if obufBytes < decSize count then rejectArgument .outputRange
  else
    match firstInvalid ib count with
    | some k => .err .invalidSymbol (BitVec.ofNat 32 k)
    | none => .ok (BitVec.ofNat 32 (decSize count)) (decodeWrites ib count (decSize count))

/-- R170: the meaning of DECODE: the symbol count is ARG0 as latched; ARG1 is ignored. -/
def execDecode (s : State) : Host.Outcome State Fault Refusal :=
  s.runLatched (fun p => decodeResult s.ibufBytes s.obufBytes s.ibufByte p.operand0)

end Sys2Proof.Machine
end

