-- ==== Sys2Proof/Machine/Encoder.lean ====
section
/-!
DEFINITION. The encoder unit and the command ENCODE (`41_encode.md`, rules R130 to R133 and R140), as a
function of the bit stream. The phase-table datapath of rule R134 is in Machine/Datapath.lean.
`ib` is IBUF as a function of the byte index, `sb` the significant-bit count, `inlen` the input length.
-/

namespace Sys2Proof.Machine

/-- R131: the effective input bit E(i). Bits at `sb` and above are 0 (C3, D10), and so are the bits of
the bytes at `inlen` and above, which are never read. -/
def inputBit (ib : Nat → Byte) (sb inlen i : Nat) : Bool :=
  if i < sb ∧ i / 8 < inlen then streamBit ib i else false

/-- R132: symbol value `k`, stream bits `5k` to `5k+4`, the first of them bit 4. -/
def symbolAt (ib : Nat → Byte) (sb inlen k : Nat) : Symbol :=
  packBits 5 (fun j => inputBit ib sb inlen (5 * k + j))

/-- R133, R140: the OBUF writes of an encoding of `n` symbols, `OBUF[k] <- FWD[sym(k)]`. -/
def encodeWrites (ib : Nat → Byte) (sb inlen n : Nat) : List Host.Cell :=
  (List.range n).map (fun k => (k, fwd (symbolAt ib sb inlen k)))

/-- R140: ENCODE on buffers of the given capacities. The input range is checked first (R210). -/
def encodeResult (ibufBytes obufBytes : Nat) (ib : Nat → Byte) (sb inlen : Nat) : CommandResult :=
  if ibufBytes < inlen then rejectArgument .inputRange
  else if obufBytes < encSize sb then rejectArgument .outputRange
  else .ok (BitVec.ofNat 32 (encSize sb)) (encodeWrites ib sb inlen (encSize sb))

/-- R140: the meaning of ENCODE: `sb` is ARG0 and `inlen` is ARG1, as latched. -/
def execEncode (s : State) : Host.Outcome State Fault Refusal :=
  s.runLatched (fun p =>
    encodeResult s.ibufBytes s.obufBytes s.ibufByte p.operand0 p.operand1)

end Sys2Proof.Machine
end

