-- ==== Sys2Proof/Machine/Lookup.lean ====
section
/-!
DEFINITION. The lookup commands LUT_FWD and LUT_REV (`40_alphabet_rom.md`, rules R115 and R116).
-/

namespace Sys2Proof.Machine

/-- R115: LUT_FWD. No bit of the index is ignored: 32 is out of range, not 0. -/
def lutFwdResult (index : Nat) : CommandResult :=
  if 31 < index then rejectArgument .lutRange
  else .ok (zext32 (fwd (BitVec.ofNat 5 index))) []

/-- R116: LUT_REV. A byte outside the alphabet is no error here: it gives the INVALID entry. -/
def lutRevResult (value : Nat) : CommandResult :=
  if 255 < value then rejectArgument .lutRange
  else .ok ((rev (BitVec.ofNat 8 value)).setWidth 32) []

/-- R115: the meaning of LUT_FWD. -/
def execLutFwd (s : State) : Host.Outcome State Fault Refusal :=
  s.runLatched (fun p => lutFwdResult p.operand0)

/-- R116: the meaning of LUT_REV. -/
def execLutRev (s : State) : Host.Outcome State Fault Refusal :=
  s.runLatched (fun p => lutRevResult p.operand0)

end Sys2Proof.Machine
end

