-- ==== Sys2Proof/Machine/Dispatch.lean ====
section
/-!
DEFINITION. One arm per command: its meaning, which is its completion step (rules R95 and R96).
-/

namespace Sys2Proof.Machine

def exec (i : Instr) (s : State) : Host.Outcome State Fault Refusal :=
  match i with
  | .encode => Sys2Proof.Machine.execEncode s
  | .decode => Sys2Proof.Machine.execDecode s
  | .encSize => Sys2Proof.Machine.execEncSize s
  | .decSize => Sys2Proof.Machine.execDecSize s
  | .lutFwd => Sys2Proof.Machine.execLutFwd s
  | .lutRev => Sys2Proof.Machine.execLutRev s

end Sys2Proof.Machine
end

