-- ==== Sys2Proof/Machine/Flags.lean ====
section
/-!
DEFINITION. The flags of the block (rules R24, R25, R33, R38 and R41): how STATUS and INTEN read, what
a host write to them does, and the interrupt line. No command sets a flag from its data (R38).
-/

namespace Sys2Proof.Machine

/-- R24: STATUS as the host reads it. Bits 3:2 and 31:9 are reserved and read as 0. -/
def State.statusWord (s : State) : Word :=
  (0 : BitVec 23) ++ BitVec.ofBool s.busywr ++ s.err.bits ++ (0 : BitVec 2) ++
    BitVec.ofBool s.done ++ BitVec.ofBool s.busy

/-- R33: INTEN as the host reads it. Bits 31:1 are reserved and read as 0. -/
def State.intenWord (s : State) : Word := (0 : BitVec 31) ++ BitVec.ofBool s.doneIe

/-- R25: a host write to STATUS. Bit 1 clears DONE and ERR, bit 8 clears BUSYWR, every other bit is
ignored. -/
def State.writeStatus (s : State) (w : Word) : State :=
  let s1 := if w.getLsbD 1 then s.acknowledge else s
  if w.getLsbD 8 then { s1 with busywr := false } else s1

/-- R33: a host write to INTEN. -/
def State.writeInten (s : State) (w : Word) : State := { s with doneIe := w.getLsbD 0 }

/-- R41, R212: the level-sensitive interrupt line, combinational on two bits. -/
def State.irq (s : State) : Bool := s.done && s.doneIe

end Sys2Proof.Machine
end

