-- ==== Sys2Proof/Machine/Bus.lean ====
section
/-!
DEFINITION. The host port (`20_memory.md`): the address map, the widths and alignments it serves, bus
errors, register and buffer reads and writes, and what BUSY does to them.
-/

namespace Sys2Proof.Machine

/-- The registers of the CSR file (R22). -/
inductive Csr where
  | cmd
  | status
  | arg0
  | arg1
  | result
  | errinfo
  | inten
  | ibufSize
  | obufSize
  | id
  /-- Offsets 0x028 to 0x0FC (R34). -/
  | reserved
  deriving DecidableEq, Repr

/-- How many bytes a buffer access moves (R64). -/
inductive Lanes where
  | one
  | four
  deriving DecidableEq, Repr

/-- What a host access addresses, or that it is a bus error (R60, R63, R64, R66). -/
inductive Target where
  | csr (r : Csr)
  | ibuf (i : Nat) (lanes : Lanes)
  | obuf (i : Nat) (lanes : Lanes)
  | busError
  deriving DecidableEq, Repr

/-- R22: the register at an offset of the CSR region. -/
def csrAt (off : Nat) : Csr :=
  match off with
  | 0x000 => .cmd
  | 0x004 => .status
  | 0x008 => .arg0
  | 0x00C => .arg1
  | 0x010 => .result
  | 0x014 => .errinfo
  | 0x018 => .inten
  | 0x01C => .ibufSize
  | 0x020 => .obufSize
  | 0x024 => .id
  | _ => .reserved

/-- R31: ID reads as the ASCII bytes "ZB32". -/
def idValue : Word := 0x5A423332

/-- R64: the lanes of an access to a buffer of `cap` bytes at byte index `i`, if the buffer serves it.
A 32-bit access needs an offset that is a multiple of 4 and all four bytes inside the buffer. -/
def bufferLanes (cap : Nat) (width : Width) (i : Nat) : Option Lanes :=
  match width with
  | .w8 => if i < cap then some .one else none
  | .w32 => if i % 4 = 0 ∧ i + 3 < cap then some .four else none
  | .w16 => none
  | .w64 => none

/-- R60: the first offset of the IBUF window. -/
def ibufBase : Nat := 0x10000

/-- R60: the first offset of the OBUF window. -/
def obufBase : Nat := 0x20000

/-- R60, R64: the target of an access to the IBUF window, by the lanes IBUF serves it with. -/
def ibufTarget (i : Nat) : Option Lanes → Target
  | some lanes => .ibuf i lanes
  | none => .busError

/-- R60, R64: the target of an access to the OBUF window, by the lanes OBUF serves it with. -/
def obufTarget (i : Nat) : Option Lanes → Target
  | some lanes => .obuf i lanes
  | none => .busError

/-- R60, R63, R64: the target of an access of this width at this offset. -/
def State.targetOf (s : State) (width : Width) (offset : Offset) : Target :=
  let off := offset.toNat
  if off < 0x100 then
    if width = .w32 ∧ off % 4 = 0 then .csr (csrAt off) else .busError
  else if ibufBase ≤ off ∧ off < obufBase then
    ibufTarget (off - ibufBase) (bufferLanes s.ibufBytes width (off - ibufBase))
  else if obufBase ≤ off ∧ off < 0x30000 then
    obufTarget (off - obufBase) (bufferLanes s.obufBytes width (off - obufBase))
  else .busError

/-! ### Reads -/

/-- R22: what a register reads as. -/
def State.readCsr (s : State) : Csr → Word
  | .cmd => s.cmd
  | .status => s.statusWord
  | .arg0 => s.arg0
  | .arg1 => s.arg1
  | .result => s.result
  | .errinfo => s.errinfo
  | .inten => s.intenWord
  | .ibufSize => BitVec.ofNat 32 s.ibufBytes
  | .obufSize => BitVec.ofNat 32 s.obufBytes
  | .id => idValue
  | .reserved => 0

/-- R65: what an access to buffer bytes reads. -/
def readLanes (b : Nat → Byte) (i : Nat) : Lanes → Word
  | .one => zext32 (b i)
  | .four => wordOfLanes b i

/-- R67: the OBUF byte the host sees: 0x00 while BUSY is 1. -/
def State.visibleObufByte (s : State) (i : Nat) : Byte := if s.busy then 0 else s.obufByte i

/-- R66: the error response carries data 0. -/
def errorResponse : Response := { data := 0, error := true }

/-- R13, R61, R62: MemRead. It has no side effect (R72). -/
def State.memRead (s : State) (width : Width) (offset : Offset) : Response :=
  match s.targetOf width offset with
  | .csr r => { data := s.readCsr r, error := false }
  | .ibuf i lanes => { data := readLanes s.ibufByte i lanes, error := false }
  | .obuf i lanes => { data := readLanes s.visibleObufByte i lanes, error := false }
  | .busError => errorResponse

/-! ### Writes -/

/-- R45: performs a write that BUSY = 1 drops. -/
def State.unlessBusy (s t : State) : State := if s.busy then s.dropWrite else t

/-- R23, R25 to R28, R32 to R34, R44: a host write to a register. -/
def State.writeCsr (s : State) (r : Csr) (w : Word) : State :=
  match r with
  | .cmd => s.unlessBusy (s.startCommand w)
  | .status => s.writeStatus w
  | .arg0 => s.unlessBusy (s.withArg0 w)
  | .arg1 => s.unlessBusy (s.withArg1 w)
  | .inten => s.writeInten w
  | .result => s
  | .errinfo => s
  | .ibufSize => s
  | .obufSize => s
  | .id => s
  | .reserved => s

/-- R65: the buffer bytes an access stores. -/
def laneWrites (i : Nat) (w : Word) : Lanes → List Host.Cell
  | .one => [(i, laneOfWord w 0)]
  | .four => [(i, laneOfWord w 0), (i + 1, laneOfWord w 1), (i + 2, laneOfWord w 2),
      (i + 3, laneOfWord w 3)]

/-- R61: stores bytes in IBUF. -/
def State.storeIbuf (s : State) (writes : List Host.Cell) : State :=
  { s with ibuf := s.ibuf.setAll writes }

/-- R66: whether the block answers a write to this target with the error response. Every write to OBUF
is one. -/
def writeErrs : Target → Bool
  | .csr _ => false
  | .ibuf _ _ => false
  | .obuf _ _ => true
  | .busError => true

/-- R13: MemWrite. A write that bus-errors changes nothing (R66). -/
def State.memWrite (s : State) (width : Width) (offset : Offset) (v : Word) : State :=
  match s.targetOf width offset with
  | .csr r => s.writeCsr r v
  | .ibuf i lanes => s.unlessBusy (s.storeIbuf (laneWrites i v lanes))
  | .obuf _ _ => s
  | .busError => s

/-- R66: the response to a host write. -/
def State.writeResponse (s : State) (width : Width) (offset : Offset) : Response :=
  { data := 0, error := writeErrs (s.targetOf width offset) }

/-- R74: one host access takes effect, and its response is recorded. -/
def State.hostAccess (s : State) (a : Access) : State :=
  match a.dir with
  | .read => s.withResponse (s.memRead a.width a.offset)
  | .write =>
    (s.memWrite a.width a.offset a.data).withResponse (s.writeResponse a.width a.offset)

end Sys2Proof.Machine
end

