-- ==== Sys2Proof/Machine/Schedule.lean ====
section
/-!
DEFINITION. Which agent moves next (rules R16, R74, R211 and R252), taken from plain data in the state:
the queue of inputs and what is left of the pending command's latency.
-/

namespace Sys2Proof.Machine

/-- R240, R211: the reset input is asserted at this step. -/
def State.resetNow (s : State) : Bool := s.inputs.head? == some .reset

/-- R95, R252: the pending command whose completion is this step. A reset comes before it (R211). -/
def State.due (s : State) : Option Pending :=
  if s.resetNow then none
  else
    match s.pending with
    | some p => if p.wait = 0 then some p else none
    | none => none

/-- The STATUS read of the host's `wait` loop (R100). -/
def pollAccess : Access := { dir := .read, width := .w32, offset := 0x004, data := 0 }

/-- One input takes effect, with `rest` what comes after it. A `wait` loop that reads BUSY = 1 stays at
the head of the queue (R100). -/
def State.takeInput (s : State) (i : Input) (rest : List Input) : State :=
  match i with
  | .access a => (s.withInputs rest).hostAccess a
  | .pollBusy => (s.withInputs (if s.busy then s.inputs else rest)).hostAccess pollAccess
  | .idle => s.withInputs rest
  | .reset => (s.withInputs rest).resetEvent

/-- A step in which no command completes: the delay of a pending command shortens by one step, and the
next input, if there is one, takes effect. With neither, the block stays idle (R243). -/
def State.hostTurn (s : State) : State :=
  match s.inputs with
  | [] => s.elapse
  | i :: rest => s.elapse.takeInput i rest

/-- Keeps a reset that stands at the head of the inputs from coming before the next step. -/
def holdReset (inputs : List Input) : List Input :=
  if inputs.head? == some .reset then .idle :: inputs else inputs

/-- R94 with the delay already passed: the command `w` is latched, and the next step completes it. -/
def State.latchCommand (s : State) (w : Word) : State :=
  { s with
    cmd := w
    pending := some { cmdword := w, arg0 := s.arg0, arg1 := s.arg1, wait := 0 }
    busy := true
    done := false
    err := .noError
    errinfo := 0
    cursor := Cursor.start
    inputs := holdReset s.inputs }

end Sys2Proof.Machine
end

