-- ==== Sys2Proof/Machine/Step.lean ====
section
/-!
DEFINITION. One step of the block: the completion of the pending command when it is due, by the meaning
of the command its word decodes to (rules R95 and R96), and the host's turn otherwise.
-/

namespace Sys2Proof.Machine

/-- R96, R203: completes a pending command. A word that names no command completes with
ILLEGAL_COMMAND. -/
def runCommand (p : Pending) (s : State) : Host.Outcome State Fault Refusal :=
  match decode p.cmdword with
  | .command i => exec i s
  | .illegal _ => .next (s.completeIllegal p.cmdword)

/-- One step. -/
def step (s : State) : Host.Outcome State Fault Refusal :=
  match s.due with
  | some p => runCommand p s
  | none => .next s.hostTurn

/-- The state in which the next step runs the command of this table word. The block fetches nothing
(R21): a command comes from the latch, so the word is put there as R94 does, with its delay passed. -/
def State.withFetchWord (s : State) (nbits w : Nat) : State :=
  s.latchCommand (BitVec.ofNat 32 (w % 2 ^ nbits))

end Sys2Proof.Machine
end

