-- ==== Sys2Proof/Machine/Datapath.lean ====
section
/-!
DEFINITION. The reference datapaths: the 8-phase shift-and-mask schedules of the encoder (rule R134)
and of the decoder (rules R164 and R165), with the hidden cursor of rule R40. They are a second
description of what ENCODE and DECODE compute (rules R97, R137 and R166), stated as equivalences in
the obligations; no meaning calls them.
-/

namespace Sys2Proof.Machine

/-- R134, R164: the cursor advance of a phase. -/
def phaseAdvance : Nat → Nat
  | 1 => 1
  | 3 => 1
  | 4 => 1
  | 6 => 1
  | 7 => 1
  | _ => 0

/-- R134, R164: the cursor after a step: the next symbol, and the byte cursor moved by the phase. -/
def Cursor.next (q : Cursor) : Cursor := { q with k := q.k + 1, c := q.c + phaseAdvance q.phase }

/-- R21, R134: the cursor at the start of symbol `k`. -/
def cursorAt : Nat → Cursor
  | 0 => Cursor.start
  | k + 1 => (cursorAt k).next

/-- R134: how many bits of input byte `j` are significant. -/
def keepBits (sb j : Nat) : Nat := min 8 (sb - 8 * j)

/-- R134: the masked input byte M(j). -/
def maskedByte (ib : Nat → Byte) (sb inlen j : Nat) : Byte :=
  (if j < inlen then ib j else 0x00) &&& ((0xFF : Byte) <<< (8 - keepBits sb j))

/-- R134: the symbol value of a phase from the bytes under and after the cursor. -/
def encodePhase (p : Nat) (m m1 : Byte) : Byte :=
  match p with
  | 0 => (m >>> 3) &&& 0x1F
  | 1 => ((m &&& 0x07) <<< 2) ||| (m1 >>> 6)
  | 2 => (m >>> 1) &&& 0x1F
  | 3 => ((m &&& 0x01) <<< 4) ||| (m1 >>> 4)
  | 4 => ((m &&& 0x0F) <<< 1) ||| (m1 >>> 7)
  | 5 => (m >>> 2) &&& 0x1F
  | 6 => ((m &&& 0x03) <<< 3) ||| (m1 >>> 5)
  | _ => m &&& 0x1F

/-- R134: the symbol values of the encoder datapath, one step per output symbol, from a cursor. -/
def encodeValues (m : Nat → Byte) : Nat → Cursor → List Byte
  | 0, _ => []
  | n + 1, q => encodePhase q.phase (m q.c) (m (q.c + 1)) :: encodeValues m n q.next

/-- R134: the encoder datapath: each step outputs FWD[v] of its symbol value. -/
def encodeDatapath (m : Nat → Byte) (n : Nat) (q : Cursor) : List Byte :=
  (encodeValues m n q).map (fun v => fwd (v.setWidth 5))

/-- R164: the part of symbol value `v` that goes into the byte under the cursor. -/
def decodePhaseHere (p : Nat) (v : Byte) : Byte :=
  match p with
  | 0 => v <<< 3
  | 1 => v >>> 2
  | 2 => v <<< 1
  | 3 => v >>> 4
  | 4 => v >>> 1
  | 5 => v <<< 2
  | 6 => v >>> 3
  | _ => v

/-- R164: the part of symbol value `v` that spills into the byte after the cursor, in the phases that
spill. -/
def decodePhaseSpill (p : Nat) (v : Byte) : Option Byte :=
  match p with
  | 1 => some ((v &&& 0x03) <<< 6)
  | 3 => some ((v &&& 0x0F) <<< 4)
  | 4 => some ((v &&& 0x01) <<< 7)
  | 6 => some ((v &&& 0x07) <<< 5)
  | _ => none

/-- R164: ORs a value into scratch byte `i`. -/
def orInto (scratch : List Byte) (i : Nat) (v : Byte) : List Byte := scratch.modify i (· ||| v)

/-- R164: one step of the decoder datapath on the scratch output. -/
def decodeStep (scratch : List Byte) (q : Cursor) (v : Byte) : List Byte :=
  let here := orInto scratch q.c (decodePhaseHere q.phase v)
  match decodePhaseSpill q.phase v with
  | some spill => orInto here (q.c + 1) spill
  | none => here

/-- R164: the decoder datapath, one step per input symbol, from a cursor and a scratch output. -/
def decodeDatapath (value : Nat → Byte) : Nat → Cursor → List Byte → List Byte
  | 0, _, scratch => scratch
  | n + 1, q, scratch => decodeDatapath value n q.next (decodeStep scratch q (value q.k))

/-- R165: a scratch output of `len` bytes, all 0x00 before any OR. -/
def zeroScratch (len : Nat) : List Byte := List.replicate len 0x00

end Sys2Proof.Machine
end

