-- ==== Sys2Proof/Machine/Script.lean ====
section
/-!
DEFINITION. Host scripts (rules R99 to R101): the four access forms, the pseudo-instructions with their
expansions, and the test record of an access. A script is a list of inputs for the queue of the state.
-/

namespace Sys2Proof.Machine

/-- R22, R99: the offset of a register's name. The reserved space has no name; its first offset
stands for it. -/
def Csr.offset : Csr → Offset
  | .cmd => 0x000
  | .status => 0x004
  | .arg0 => 0x008
  | .arg1 => 0x00C
  | .result => 0x010
  | .errinfo => 0x014
  | .inten => 0x018
  | .ibufSize => 0x01C
  | .obufSize => 0x020
  | .id => 0x024
  | .reserved => 0x028

/-- R99: the name IBUF with `+n`. -/
def ibufAt (n : Nat) : Offset := BitVec.ofNat 18 (ibufBase + n)

/-- R99: the name OBUF with `+n`. -/
def obufAt (n : Nat) : Offset := BitVec.ofNat 18 (obufBase + n)

/-- R99: `wr32 OFF, VAL`. -/
def wr32 (off : Offset) (v : Word) : Input :=
  .access { dir := .write, width := .w32, offset := off, data := v }

/-- R99: `wr8 OFF, VAL`. -/
def wr8 (off : Offset) (v : Byte) : Input :=
  .access { dir := .write, width := .w8, offset := off, data := v.setWidth 32 }

/-- R99: `rd32 OFF`. -/
def rd32 (off : Offset) : Input :=
  .access { dir := .read, width := .w32, offset := off, data := 0 }

/-- R99: `rd8 OFF`. -/
def rd8 (off : Offset) : Input :=
  .access { dir := .read, width := .w8, offset := off, data := 0 }

/-- R100: `cmd MNEM`. -/
def scriptCmd (i : Instr) : List Input := [wr32 Csr.cmd.offset (encode i)]

/-- R100: `arg0 V`. -/
def scriptArg0 (v : Word) : List Input := [wr32 Csr.arg0.offset v]

/-- R100: `arg1 V`. -/
def scriptArg1 (v : Word) : List Input := [wr32 Csr.arg1.offset v]

/-- R100: `wait`. -/
def scriptWait : List Input := [.pollBusy]

/-- R100: `ack`, which clears DONE, ERR and BUSYWR. -/
def scriptAck : List Input := [wr32 Csr.status.offset 0x00000102]

/-- R100: `load OFF, "text"`: one byte write per character, at rising offsets. -/
def scriptLoad (off : Offset) : List Char → List Input
  | [] => []
  | c :: rest => wr8 off (BitVec.ofNat 8 c.toNat) :: scriptLoad (off + 1) rest

/-- R100: `run MNEM, A0`. -/
def scriptRun1 (i : Instr) (a0 : Word) : List Input :=
  scriptArg0 a0 ++ scriptCmd i ++ scriptWait

/-- R100: `run MNEM, A0, A1`. -/
def scriptRun2 (i : Instr) (a0 a1 : Word) : List Input :=
  scriptArg0 a0 ++ scriptArg1 a1 ++ scriptCmd i ++ scriptWait

/-! ### Test records -/

/-- R101: the hexadecimal digits, in capitals as the rule's examples have them. -/
def hexAlphabet : List Char :=
  ['0', '1', '2', '3', '4', '5', '6', '7', '8', '9', 'A', 'B', 'C', 'D', 'E', 'F']

/-- R101: one hexadecimal digit. -/
def hexDigit (d : Nat) : Char := hexAlphabet.getD d '0'

/-- R101: the value of a hexadecimal digit. -/
def hexValue (c : Char) : Option Nat := hexAlphabet.findIdx? (fun d => d == c)

/-- R101: the number that hexadecimal digits stand for, the most significant first, after `acc`. -/
def readHex (acc : Nat) : List Char → Option Nat
  | [] => some acc
  | c :: rest =>
    match hexValue c with
    | some d => readHex (16 * acc + d) rest
    | none => none

/-- R101: the last `n` hexadecimal digits of a number, the most significant first. -/
def hexDigits : Nat → Nat → List Char
  | 0, _ => []
  | n + 1, v => hexDigits n (v / 16) ++ [hexDigit (v % 16)]

/-- R101: the direction letter of a record. -/
def Dir.letter : Dir → Char
  | .read => 'R'
  | .write => 'W'

/-- R101: the width digits of a record. The records know only the widths the block serves (R64). -/
def Width.digits : Width → Option (List Char)
  | .w8 => some ['8']
  | .w32 => some ['3', '2']
  | .w16 => none
  | .w64 => none

/-- R101: the record of an access, with `data` what a write carries or a read returned. -/
def recordOf (dir : Dir) (width : Width) (offset : Offset) (data : Word) : Option (List Char) :=
  width.digits.map (fun ws =>
    dir.letter :: ws ++ [' '] ++ hexDigits 5 offset.toNat ++ [' '] ++ hexDigits 8 data.toNat)

/-- R101: the direction a letter stands for. -/
def dirOfLetter (c : Char) : Option Dir :=
  if c = 'R' then some .read else if c = 'W' then some .write else none

/-- R101: the offset and data fields of a record, after its width. DESIGN CHOICE
(notes/assumptions/16.md): R101 does not say what 5 digits above 0x3FFFF stand for; such a record is
refused, as an offset the 18-bit host port (R60) does not have. -/
def readFields (cs : List Char) : Option (Offset × Word) :=
  if cs.length = 14 ∧ cs[5]? = some ' ' then
    match readHex 0 (cs.take 5), readHex 0 (cs.drop 6) with
    | some off, some data =>
      if off < 2 ^ 18 then some (BitVec.ofNat 18 off, BitVec.ofNat 32 data) else none
    | _, _ => none
  else none

/-- R101: the direction, width, offset and data that a record stands for. DESIGN CHOICE
(notes/assumptions/16.md): R101 does not say what a record of width 8 with a data field above 0x000000FF
stands for; it is read with its whole data field, of which the access moves bits 7:0
(notes/assumptions/14.md). Small digits and any other spacing than the rule's are refused. -/
def readRecord (cs : List Char) : Option (Dir × Width × Offset × Word) :=
  match cs with
  | d :: '8' :: ' ' :: fields =>
    match dirOfLetter d, readFields fields with
    | some dir, some (off, data) => some (dir, .w8, off, data)
    | _, _ => none
  | d :: '3' :: '2' :: ' ' :: fields =>
    match dirOfLetter d, readFields fields with
    | some dir, some (off, data) => some (dir, .w32, off, data)
    | _, _ => none
  | _ => none

end Sys2Proof.Machine
end

