-- ==== Sys2Proof/Safety.lean ====
section
/-!
DEFINITION. What a legal state is and what a run without reset is, in the terms the statements use.
-/

namespace Sys2Proof.Machine

/-- The legal states: what rules R6, R21, R24, R32, R39 and R205 say of every state, and that both buffers
keep their canonical form. -/
structure State.Inv (s : State) : Prop where
  /-- R6: the legal range of IBUF_BYTES. -/
  ibufCapacity : 1 ≤ s.ibufBytes ∧ s.ibufBytes ≤ 65536
  /-- R6: the legal range of OBUF_BYTES. -/
  obufCapacity : 1 ≤ s.obufBytes ∧ s.obufBytes ≤ 65536
  /-- R36: IBUF holds bytes inside its capacity, in canonical form. -/
  ibufForm : s.ibuf.wf s.ibufBytes
  /-- R37: OBUF holds bytes inside its capacity, in canonical form. -/
  obufForm : s.obuf.wf s.obufBytes
  /-- R39: the latch is empty exactly when BUSY is 0. -/
  latchBusy : s.busy = s.pending.isSome
  /-- R24: BUSY implies that DONE is 0 and ERR is NONE; R32: ERRINFO is 0 from the start on. -/
  busyFlags : s.busy = true → s.done = false ∧ s.err = .noError ∧ s.errinfo = 0
  /-- R25, R205: an error code stands only beside DONE. -/
  errorDone : s.err ≠ .noError → s.done = true
  /-- R32, R200: ERRINFO is 0 after a successful completion. -/
  successInfo : s.done = true → s.err = .noError → s.errinfo = 0
  /-- R39: the latch holds the word in CMD and the operands in ARG0 and ARG1. -/
  latched : ∀ p, s.pending = some p → p.cmdword = s.cmd ∧ p.arg0 = s.arg0 ∧ p.arg1 = s.arg1
  /-- R21: the cursor is at its start while a command is pending (completion is one step, R97). -/
  cursorStart : s.busy = true → s.cursor = Cursor.start

/-- What every completion of a command does and leaves alone, success or error (R95, R205). The hidden
cursor is not mentioned: it is a free value between commands (I9). -/
structure Completes (s t : State) : Prop where
  busy : t.busy = false
  done : t.done = true
  latch : t.pending = none
  cmd : t.cmd = s.cmd
  busywr : t.busywr = s.busywr
  arg0 : t.arg0 = s.arg0
  arg1 : t.arg1 = s.arg1
  doneIe : t.doneIe = s.doneIe
  ibuf : t.ibuf = s.ibuf
  ibufByte : ∀ i, t.ibufByte i = s.ibufByte i
  ibufBytes : t.ibufBytes = s.ibufBytes
  obufBytes : t.obufBytes = s.obufBytes
  inputs : t.inputs = s.inputs
  response : t.response = s.response
  epoch : t.epoch = s.epoch
  starts : t.starts = s.starts

/-- A successful completion with this value in RESULT (R95, R200). ERRINFO is not written; it is 0 from
the command's start on (R32). -/
structure Succeeds (s t : State) (res : Nat) : Prop where
  completes : Completes s t
  err : t.err = .noError
  errinfo : t.errinfo = s.errinfo
  result : t.result.toNat = res

/-- OBUF holds `f k` at every index below `n` and is as before from `n` on (R141, R172). -/
structure WritesExactly (s t : State) (n : Nat) (f : Nat → Byte) : Prop where
  written : ∀ k, k < n → t.obufByte k = f k
  kept : ∀ k, n ≤ k → t.obufByte k = s.obufByte k

/-- An error completion: the code and the detail are recorded, and no output changes (R205, R206). -/
structure Rejects (s t : State) (code : ErrCode) (info : Word) : Prop where
  completes : Completes s t
  err : t.err = code
  errinfo : t.errinfo = info
  result : t.result = s.result
  obuf : t.obuf = s.obuf
  obufByte : ∀ k, t.obufByte k = s.obufByte k

/-- The completion of the pending command `p` is this step (R95, R252): its delay has passed and the
reset input is not asserted (R211). -/
structure State.Completing (s : State) (p : Pending) : Prop where
  latched : s.pending = some p
  elapsed : p.wait = 0
  noReset : s.inputs.head? ≠ some .reset

/-- No reset is among the inputs still to come (R240). -/
def State.NoReset (s : State) : Prop := Input.reset ∉ s.inputs

end Sys2Proof.Machine
end

