-- ==== Sys2Proof/Certificates/Slice0/Obligations.lean ====
section
/-!
DEFINITION. The statements about the model, each a proposition that says which rule of the spec it
formalises. Nothing is proved here.
-/

open Sys2Proof Sys2Proof.Machine

/-! ### Command words -/

/-- R90, R91: decoding the command word of a command gives the command back. -/
def Obligations.DecodeOfEncodeIsTheCommand : Prop :=
  ∀ i : Instr, i.wf = true ∧ (fieldsOf (encode i)).wf = true ∧ decode (encode i) = .command i

/-- R91: each command is selected by its own 32-bit word, whole, and by no second word; every other word
is illegal. -/
def Obligations.OnlyTheCommandWordSelectsACommand : Prop :=
  ∀ w : Word,
    (decode w = .command .encode ↔ w = 0x00000001) ∧ (decode w = .command .decode ↔ w = 0x00000002) ∧
    (decode w = .command .encSize ↔ w = 0x00000003) ∧
    (decode w = .command .decSize ↔ w = 0x00000004) ∧
    (decode w = .command .lutFwd ↔ w = 0x00000005) ∧ (decode w = .command .lutRev ↔ w = 0x00000006) ∧
    ((∃ why, decode w = .illegal why) ↔ w.toNat = 0 ∨ 7 ≤ w.toNat)

/-- R91: the six rows of the opcode map, and the two reserved rows. -/
def Obligations.OpcodeMapWordsDecode : Prop :=
  decode 0x00000001 = .command .encode ∧ decode 0x00000002 = .command .decode ∧
  decode 0x00000003 = .command .encSize ∧ decode 0x00000004 = .command .decSize ∧
  decode 0x00000005 = .command .lutFwd ∧ decode 0x00000006 = .command .lutRev ∧
  decode 0x00000000 = .illegal .reservedOp ∧ decode 0x00000007 = .illegal .reservedOp ∧
  decode 0x0000000F = .illegal .reservedOp ∧ decode 0x80000001 = .illegal .reservedBits

/-- R92: a word is legal exactly when bits 31:4 are 0 and bits 3:0 are in 1 to 6; an illegal word
starts a command all the same, and that command completes with ERR = 3 and ERRINFO = the word. -/
def Obligations.IllegalWordsStartAndCompleteWithError : Prop :=
  (∀ w : Word, (∃ i, decode w = .command i) ↔
    w.extractLsb' 4 28 = 0 ∧ 1 ≤ (w.extractLsb' 0 4).toNat ∧ (w.extractLsb' 0 4).toNat ≤ 6) ∧
  (∀ (s : State) (w : Word), s.busy = false → (∀ i, decode w ≠ .command i) →
    ∃ p, (s.memWrite .w32 0x000 w).pending = some p ∧ p.cmdword = w ∧
      (s.memWrite .w32 0x000 w).busy = true) ∧
  (∀ (s : State) (p : Pending), s.Completing p → (∀ i, decode p.cmdword ≠ .command i) →
    ∃ t, step s = .next t ∧ Rejects s t .illegalCommand p.cmdword)

/-! ### The step -/

/-- R95, R96: when the pending command is due and its word decodes to a well-formed command, the step
is that command's completion and nothing else. The delay as data of the state is the model's choice
(notes/assumptions/4.md). -/
def Obligations.StepRunsTheDecodedCommand : Prop :=
  ∀ (s : State) (p : Pending) (i : Instr), s.Completing p → decode p.cmdword = .command i →
    i.wf = true → step s = exec i s

/-- The model's way to place a command (notes/assumptions/8.md): the very next step runs it. -/
def Obligations.PlacedCommandRunsNext : Prop :=
  ∀ (s : State) (i : Instr) (w : Nat), w < 2 ^ 32 → decode (BitVec.ofNat 32 w) = .command i →
    decodeTableWord 32 w = some i ∧
    step (s.withFetchWord 32 w) = exec i (s.withFetchWord 32 w) ∧
    ∃ p, (s.withFetchWord 32 w).pending = some p ∧ p.arg0 = s.arg0 ∧ p.arg1 = s.arg1

/-- R96: `Exec` is total, and so is every step: the block never stops. -/
def Obligations.EveryStepAnswersNext : Prop := ∀ s : State, ∃ t, step s = .next t

/-- R6, R21, R24, R32, R36, R37, R39, R200: a step from a legal state gives a legal state; after a
successful completion ERRINFO is 0. That the cursor stays at its start until the completion is the
model's choice under R97 (notes/assumptions/5.md). -/
def Obligations.StepKeepsInv : Prop :=
  ∀ s t : State, s.Inv → step s = .next t →
    t.Inv ∧ ∀ p, s.Completing p → t.err = .noError → t.errinfo = 0

/-- The state after reset is legal; its cursor is the model's choice (notes/assumptions/5.md). -/
def Obligations.ResetMeetsInv : Prop := State.reset.Inv

/-- R78, R39, R28, R40: until its completion step, a pending command keeps its latched word and
operands, IBUF cannot change, and no output appears. The delay as a countdown is the model's choice
(notes/assumptions/4.md). -/
def Obligations.OperandsHoldUntilCompletion : Prop :=
  ∀ (s : State) (p : Pending) (k : Nat), s.Inv → s.NoReset → s.pending = some p → k ≤ p.wait →
    ∃ t : State, Sys2Proof.core.run k s = .next t ∧ t.pending = some { p with wait := p.wait - k } ∧
      t.busy = true ∧ t.done = false ∧ t.err = .noError ∧ t.errinfo = 0 ∧ t.cmd = s.cmd ∧
      t.arg0 = s.arg0 ∧ t.arg1 = s.arg1 ∧ t.ibuf = s.ibuf ∧ (∀ i, t.ibufByte i = s.ibufByte i) ∧
      t.obuf = s.obuf ∧ t.result = s.result ∧ t.ibufBytes = s.ibufBytes ∧
      t.obufBytes = s.obufBytes ∧ t.NoReset

/-- R97, R252: a pending command completes, after the steps of its latency, whatever the host does
meanwhile, as long as the block is not reset. The delay as a countdown is the model's choice
(notes/assumptions/4.md). -/
def Obligations.PendingCommandCompletesAfterItsLatency : Prop :=
  ∀ (s : State) (p : Pending), s.Inv → s.NoReset → s.pending = some p →
    ∃ t : State, Sys2Proof.core.run (p.wait + 1) s = .next t ∧ t.busy = false ∧ t.done = true ∧
      t.pending = none

/-- R78: what a command computes is fixed at the CMD write that starts it. Whatever the host does before
the completion, the block completes as it would have completed in the state right after that write. -/
def Obligations.OutcomeIsFixedAtTheStart : Prop :=
  ∀ (s : State) (w : Word) (i : Instr), s.Inv → s.NoReset → s.busy = false → decode w = .command i →
    ∃ (k : Nat) (early late : State),
      exec i (s.memWrite .w32 0x000 w) = .next early ∧
      Sys2Proof.core.run k (s.memWrite .w32 0x000 w) = .next late ∧
      late.busy = false ∧ late.done = true ∧ late.pending = none ∧ late.err = early.err ∧
      late.errinfo = early.errinfo ∧ late.result = early.result ∧ late.obuf = early.obuf ∧
      late.ibuf = s.ibuf

/-- R28: RESULT changes only in a step that completes a legal command, or at a reset. -/
def Obligations.ResultChangesOnlyAtACompletion : Prop :=
  ∀ s t : State, step s = .next t → t.result ≠ s.result →
    s.inputs.head? = some .reset ∨
      ∃ p i, s.Completing p ∧ decode p.cmdword = .command i ∧ t.err = .noError

/-- R62: OBUF is written only by ENCODE and DECODE, at their completion (a reset leaves it
unspecified, R242). -/
def Obligations.ObufWrittenOnlyByEncodeAndDecode : Prop :=
  ∀ s t : State, step s = .next t → (∃ i, t.obufByte i ≠ s.obufByte i) →
    s.inputs.head? = some .reset ∨
      ∃ p, s.Completing p ∧
        (decode p.cmdword = .command .encode ∨ decode p.cmdword = .command .decode)

/-- R36: IBUF is written only by the host, and only while BUSY is 0. -/
def Obligations.IbufWrittenOnlyByTheIdleHost : Prop :=
  ∀ s t : State, step s = .next t → (∃ i, t.ibufByte i ≠ s.ibufByte i) →
    s.inputs.head? = some .reset ∨
      (s.busy = false ∧ ∃ a, s.inputs.head? = some (.access a) ∧ a.dir = .write)

/-- R207: INTEN is changed only by host writes, all of them at its own offset (or by reset). -/
def Obligations.IntenChangedOnlyByHostWrites : Prop :=
  ∀ s t : State, step s = .next t → t.doneIe ≠ s.doneIe →
    s.inputs.head? = some .reset ∨
      ∃ a, s.inputs.head? = some (.access a) ∧ a.dir = .write ∧ a.width = .w32 ∧
        a.offset = 0x018 ∧ t.doneIe = a.data.getLsbD 0

/-- R29, R30: no step changes the buffer capacities, reset included. -/
def Obligations.CapacitiesNeverChange : Prop :=
  ∀ s t : State, step s = .next t → t.ibufBytes = s.ibufBytes ∧ t.obufBytes = s.obufBytes

/-! ### Reset -/

/-- R241: the state after reset. The buffers' contents are free values (R242). -/
def Obligations.ResetStateValues : Prop :=
  State.reset.cmd = 0 ∧ State.reset.busy = false ∧ State.reset.done = false ∧
  State.reset.err.bits = 0 ∧ State.reset.busywr = false ∧ State.reset.statusWord = 0 ∧
  State.reset.arg0 = 0 ∧ State.reset.arg1 = 0 ∧ State.reset.result = 0 ∧
  State.reset.errinfo = 0 ∧ State.reset.doneIe = false ∧ State.reset.pending = none ∧
  State.reset.irq = false ∧ State.reset.readCsr .id = 0x5A423332 ∧
  State.reset.readCsr .ibufSize = BitVec.ofNat 32 Config.ibufBytes ∧
  State.reset.readCsr .obufSize = BitVec.ofNat 32 Config.obufBytes ∧
  (∀ i, State.reset.ibuf.get? i = none) ∧ (∀ i, State.reset.obuf.get? i = none)

/-- R240: reset takes priority over everything, sets the state of R241 in one step, and abandons a
command in progress. -/
def Obligations.ResetAbandonsTheCommand : Prop :=
  ∀ (s : State) (rest : List Input), s.inputs = .reset :: rest →
    ∃ t, step s = .next t ∧ t.inputs = rest ∧ t.cmd = 0 ∧ t.busy = false ∧ t.done = false ∧
      t.err = .noError ∧ t.busywr = false ∧ t.arg0 = 0 ∧ t.arg1 = 0 ∧ t.result = 0 ∧
      t.errinfo = 0 ∧ t.doneIe = false ∧ t.pending = none ∧ t.irq = false ∧
      (∀ i, t.ibuf.get? i = none) ∧ (∀ i, t.obuf.get? i = none) ∧
      t.ibufBytes = s.ibufBytes ∧ t.obufBytes = s.obufBytes

/-! ### Starting a command -/

/-- R94: the command start, for every word, legal or not, whether or not DONE was 1; while BUSY is 1 a
CMD write does none of this. That `irq` falls at the start is R94's own inference ("Since `irq = DONE and
DONE_IE`, `irq` falls at the start"), from R41. -/
def Obligations.CmdWriteStartsACommand : Prop :=
  ∀ (s : State) (w : Word),
    (s.busy = false → ∃ t p, s.memWrite .w32 0x000 w = t ∧ t.pending = some p ∧
      p.op = w.extractLsb' 0 4 ∧ p.cmdword = w ∧ p.arg0 = s.arg0 ∧ p.arg1 = s.arg1 ∧
      t.cmd = w ∧ t.busy = true ∧ t.done = false ∧ t.err = .noError ∧ t.errinfo = 0 ∧
      t.irq = false ∧ t.busywr = s.busywr ∧ t.result = s.result ∧ t.doneIe = s.doneIe ∧
      t.ibuf = s.ibuf ∧ t.obuf = s.obuf ∧ t.epoch = s.epoch ∧ t.arg0 = s.arg0 ∧
      t.arg1 = s.arg1) ∧
    (s.busy = true → s.memWrite .w32 0x000 w = { s with busywr := true })

/-- R21, R241: the hidden cursor is at 0 when a command starts. -/
def Obligations.CursorStartsAtZero : Prop :=
  ∀ (s : State) (w : Word), s.busy = false →
    (s.memWrite .w32 0x000 w).cursor.k = 0 ∧ (s.memWrite .w32 0x000 w).cursor.c = 0 ∧
      (s.memWrite .w32 0x000 w).cursor.phase = 0

/-! ### Host writes -/

/-- R45: while BUSY is 1, a write to CMD, ARG0, ARG1 or IBUF is dropped and sets BUSYWR, with no bus
error; writes to STATUS and INTEN are accepted; a write to OBUF is a bus error at any time. -/
def Obligations.BusyDropsWrites : Prop :=
  (∀ (s : State) (off : Offset) (w : Word), s.busy = true → off = 0x000 ∨ off = 0x008 ∨ off = 0x00C →
    s.memWrite .w32 off w = { s with busywr := true } ∧ (s.writeResponse .w32 off).error = false) ∧
  (∀ (s : State) (i : Nat) (w : Word), s.busy = true → i < s.ibufBytes → i < 65536 →
    s.memWrite .w8 (BitVec.ofNat 18 (0x10000 + i)) w = { s with busywr := true } ∧
      (s.writeResponse .w8 (BitVec.ofNat 18 (0x10000 + i))).error = false) ∧
  (∀ (s : State) (i : Nat) (w : Word), s.busy = true → i % 4 = 0 → i + 3 < s.ibufBytes →
    i + 3 < 65536 →
    s.memWrite .w32 (BitVec.ofNat 18 (0x10000 + i)) w = { s with busywr := true } ∧
      (s.writeResponse .w32 (BitVec.ofNat 18 (0x10000 + i))).error = false) ∧
  (∀ (s : State) (w : Word), s.busy = true →
    s.memWrite .w32 0x004 w = s.writeStatus w ∧ (s.writeResponse .w32 0x004).error = false ∧
    s.memWrite .w32 0x018 w = { s with doneIe := w.getLsbD 0 } ∧
      (s.writeResponse .w32 0x018).error = false) ∧
  (∀ (s : State) (width : Width) (off : Offset) (w : Word), 0x20000 ≤ off.toNat →
    off.toNat < 0x30000 →
    s.memWrite width off w = s ∧ (s.writeResponse width off).error = true)

/-- R25: a write to STATUS, BUSY or not: bit 1 clears DONE and ERR, bit 8 clears BUSYWR, a 0 in either
leaves it as it was, and nothing else changes. -/
def Obligations.StatusWriteClearsTheNamedBits : Prop :=
  ∀ (s : State) (w : Word), ∃ t, s.memWrite .w32 0x004 w = t ∧
    (w.getLsbD 1 = true → t.done = false ∧ t.err = .noError) ∧
    (w.getLsbD 1 = false → t.done = s.done ∧ t.err = s.err) ∧
    (w.getLsbD 8 = true → t.busywr = false) ∧ (w.getLsbD 8 = false → t.busywr = s.busywr) ∧
    t.busy = s.busy ∧ t = { s with done := t.done, err := t.err, busywr := t.busywr }

/-- R26, R27, R33: writes to ARG0, ARG1 and INTEN store their value while BUSY is 0, and nothing
else. -/
def Obligations.IdleRegisterWritesStore : Prop :=
  ∀ (s : State) (w : Word), s.busy = false →
    s.memWrite .w32 0x008 w = { s with arg0 := w } ∧
    s.memWrite .w32 0x00C w = { s with arg1 := w } ∧
    s.memWrite .w32 0x018 w = { s with doneIe := w.getLsbD 0 }

/-- R44, R34: a write to a read-only register, to reserved space, or to the read-only bits of STATUS and
INTEN changes nothing, is no bus error and does not set BUSYWR. -/
def Obligations.ReadOnlyAndReservedWritesAreIgnored : Prop :=
  (∀ (s : State) (off : Offset) (w : Word),
    off = 0x010 ∨ off = 0x014 ∨ off = 0x01C ∨ off = 0x020 ∨ off = 0x024 ∨
      (0x028 ≤ off.toNat ∧ off.toNat < 0x100 ∧ off.toNat % 4 = 0) →
    s.memWrite .w32 off w = s ∧ (s.writeResponse .w32 off).error = false) ∧
  (∀ (s : State) (w : Word), w.getLsbD 1 = false → w.getLsbD 8 = false →
    s.memWrite .w32 0x004 w = s ∧ (s.writeResponse .w32 0x004).error = false) ∧
  ∀ (s : State) (w : Word), w.getLsbD 0 = s.doneIe →
    s.memWrite .w32 0x018 w = s ∧ (s.writeResponse .w32 0x018).error = false

/-- R61: an 8-bit write to IBUF while BUSY is 0 stores its byte and changes no other byte and no other
state. That the byte is bits 7:0 of the access's data is the model's choice (notes/assumptions/14.md). -/
def Obligations.IbufByteWriteStoresOneByte : Prop :=
  ∀ (s : State) (i : Nat) (w : Word), s.busy = false → i < s.ibufBytes → i < 65536 →
    ∃ t, s.memWrite .w8 (BitVec.ofNat 18 (0x10000 + i)) w = t ∧
      t.ibufByte i = w.extractLsb' 0 8 ∧ (∀ j, j ≠ i → t.ibufByte j = s.ibufByte j) ∧
      t = { s with ibuf := t.ibuf } ∧
      (s.writeResponse .w8 (BitVec.ofNat 18 (0x10000 + i))).error = false

/-- R65, R71: a 32-bit write to IBUF stores its four bytes, bits 7:0 at the lowest index. -/
def Obligations.IbufWordWriteIsLittleEndian : Prop :=
  ∀ (s : State) (i : Nat) (w : Word), s.busy = false → i % 4 = 0 → i + 3 < s.ibufBytes →
    i + 3 < 65536 →
    ∃ t, s.memWrite .w32 (BitVec.ofNat 18 (0x10000 + i)) w = t ∧
      t.ibufByte i = w.extractLsb' 0 8 ∧ t.ibufByte (i + 1) = w.extractLsb' 8 8 ∧
      t.ibufByte (i + 2) = w.extractLsb' 16 8 ∧ t.ibufByte (i + 3) = w.extractLsb' 24 8 ∧
      (∀ j, j < i ∨ i + 3 < j → t.ibufByte j = s.ibufByte j) ∧ t = { s with ibuf := t.ibuf } ∧
      (s.writeResponse .w32 (BitVec.ofNat 18 (0x10000 + i))).error = false

/-! ### Host reads -/

/-- R24, R200: STATUS as the host reads it, bit by bit, with the number of each error code in ERR. -/
def Obligations.StatusReadsItsFields : Prop :=
  ∀ s : State, (s.memRead .w32 0x004).error = false ∧
    ∃ w, (s.memRead .w32 0x004).data = w ∧ w.getLsbD 0 = s.busy ∧ w.getLsbD 1 = s.done ∧
      w.extractLsb' 2 2 = 0 ∧ w.extractLsb' 4 4 = s.err.bits ∧ w.getLsbD 8 = s.busywr ∧
      w.extractLsb' 9 23 = 0 ∧ s.err.bits.toNat ≤ 3 ∧
      (s.err = .noError → w.extractLsb' 4 4 = 0) ∧
      (s.err = .invalidArgument → w.extractLsb' 4 4 = 1) ∧
      (s.err = .invalidSymbol → w.extractLsb' 4 4 = 2) ∧
      (s.err = .illegalCommand → w.extractLsb' 4 4 = 3)

/-- R22 to R24, R26 to R34: what each register of the CSR file reads as, busy or not. -/
def Obligations.RegistersReadTheirValues : Prop :=
  ∀ s : State,
    s.memRead .w32 0x000 = { data := s.cmd, error := false } ∧
    s.memRead .w32 0x008 = { data := s.arg0, error := false } ∧
    s.memRead .w32 0x00C = { data := s.arg1, error := false } ∧
    s.memRead .w32 0x010 = { data := s.result, error := false } ∧
    s.memRead .w32 0x014 = { data := s.errinfo, error := false } ∧
    s.memRead .w32 0x018 = { data := if s.doneIe then 1 else 0, error := false } ∧
    s.memRead .w32 0x01C = { data := BitVec.ofNat 32 s.ibufBytes, error := false } ∧
    s.memRead .w32 0x020 = { data := BitVec.ofNat 32 s.obufBytes, error := false } ∧
    s.memRead .w32 0x024 = { data := 0x5A423332, error := false } ∧
    ∀ off : Offset, 0x028 ≤ off.toNat → off.toNat < 0x100 → off.toNat % 4 = 0 →
      s.memRead .w32 off = { data := 0, error := false }

/-- R61, R65: a host read of IBUF returns the stored bytes, busy or not, the lowest index in bits 7:0 of a
32-bit read. That an 8-bit read gives its byte zero-extended is the model's choice
(notes/assumptions/14.md). -/
def Obligations.IbufReadsAreLittleEndian : Prop :=
  ∀ (s : State) (i : Nat), i < s.ibufBytes → i < 65536 →
    s.memRead .w8 (BitVec.ofNat 18 (0x10000 + i)) =
      { data := (s.ibufByte i).setWidth 32, error := false } ∧
    (i % 4 = 0 → i + 3 < s.ibufBytes →
      s.memRead .w32 (BitVec.ofNat 18 (0x10000 + i)) =
        { data := s.ibufByte (i + 3) ++ s.ibufByte (i + 2) ++ s.ibufByte (i + 1) ++ s.ibufByte i
          error := false })

/-- R62, R65, R67: a host read of OBUF returns the stored bytes while BUSY is 0 and zero data, with no
bus error and no other effect, while BUSY is 1. That an 8-bit read gives its byte zero-extended
(notes/assumptions/14.md) and that the response is recorded in the state (notes/assumptions/7.md) are the
model's choices. -/
def Obligations.ObufReadsZeroWhileBusy : Prop :=
  ∀ (s : State) (i : Nat), i < s.obufBytes → i < 65536 →
    (s.busy = false →
      s.memRead .w8 (BitVec.ofNat 18 (0x20000 + i)) =
        { data := (s.obufByte i).setWidth 32, error := false } ∧
      (i % 4 = 0 → i + 3 < s.obufBytes →
        s.memRead .w32 (BitVec.ofNat 18 (0x20000 + i)) =
          { data := s.obufByte (i + 3) ++ s.obufByte (i + 2) ++ s.obufByte (i + 1) ++ s.obufByte i
            error := false })) ∧
    (s.busy = true →
      s.memRead .w8 (BitVec.ofNat 18 (0x20000 + i)) = { data := 0, error := false } ∧
      s.hostAccess
          { dir := .read, width := .w8, offset := BitVec.ofNat 18 (0x20000 + i), data := 0 } =
        { s with response := some { data := 0, error := false } } ∧
      (i % 4 = 0 → i + 3 < s.obufBytes →
        s.memRead .w32 (BitVec.ofNat 18 (0x20000 + i)) = { data := 0, error := false }))

/-- R72: a host read changes nothing but the model's record of its response (notes/assumptions/7.md), and
repeating it gives the same response. -/
def Obligations.ReadsHaveNoSideEffect : Prop :=
  ∀ (s : State) (a : Access), a.dir = .read →
    s.hostAccess a = { s with response := (s.hostAccess a).response } ∧
    ((s.hostAccess a).hostAccess a) = s.hostAccess a

/-! ### Bus errors -/

/-- R63: in the CSR region, exactly the 32-bit accesses at multiples of 4 are no bus error. -/
def Obligations.CsrAccessesAreAlignedWords : Prop :=
  ∀ (s : State) (width : Width) (off : Offset), off.toNat < 0x100 →
    ((s.memRead width off).error = false ↔ width = .w32 ∧ off.toNat % 4 = 0) ∧
    ((s.writeResponse width off).error = false ↔ width = .w32 ∧ off.toNat % 4 = 0)

/-- R60, R64: in the buffer windows, exactly the 8-bit accesses inside the buffer and the aligned
32-bit accesses wholly inside it are no bus error; every write to OBUF is one; a 16-bit or 64-bit access
is one anywhere. -/
def Obligations.BufferAccessesStayInsideTheBuffer : Prop :=
  ∀ (s : State) (width : Width) (off : Offset),
    (width = .w16 ∨ width = .w64 →
      (s.memRead width off).error = true ∧ (s.writeResponse width off).error = true) ∧
    (0x10000 ≤ off.toNat → off.toNat < 0x20000 →
      ((s.memRead width off).error = false ↔
        (width = .w8 ∧ off.toNat < 0x10000 + s.ibufBytes) ∨
          (width = .w32 ∧ off.toNat % 4 = 0 ∧ off.toNat + 3 < 0x10000 + s.ibufBytes)) ∧
      (s.writeResponse width off).error = (s.memRead width off).error) ∧
    (0x20000 ≤ off.toNat → off.toNat < 0x30000 →
      ((s.memRead width off).error = false ↔
        (width = .w8 ∧ off.toNat < 0x20000 + s.obufBytes) ∨
          (width = .w32 ∧ off.toNat % 4 = 0 ∧ off.toNat + 3 < 0x20000 + s.obufBytes)) ∧
      (s.writeResponse width off).error = true)

/-- R60, R64: an access to an unmapped offset is a bus error, and so is every 16-bit or 64-bit
access. -/
def Obligations.UnmappedAccessesAreBusErrors : Prop :=
  ∀ (s : State) (width : Width) (off : Offset),
    (0x100 ≤ off.toNat ∧ off.toNat < 0x10000) ∨ 0x30000 ≤ off.toNat ∨ width = .w16 ∨
      width = .w64 →
    (s.memRead width off).error = true ∧ (s.writeResponse width off).error = true

/-- R66, R204: a bus error changes no state and a read that bus-errors returns data 0. That the response is
recorded in a field of the state, and that it has data 0 for a write, are the model's choices
(notes/assumptions/7.md). -/
def Obligations.BusErrorsChangeNothing : Prop :=
  ∀ (s : State) (a : Access), (∃ r, (s.hostAccess a).response = some r ∧ r.error = true) →
    s.hostAccess a = { s with response := some { data := 0, error := true } } ∧
      (s.hostAccess a).irq = s.irq

/-! ### The interrupt line and the acknowledge -/

/-- R41, R33, R212: the line is DONE and DONE_IE; setting DONE_IE while DONE is 1 raises it at once and
clearing DONE_IE drops it and leaves DONE. R207: an acknowledge drops it and leaves ERRINFO. R241: it is 0
after reset, which R41 derives from R24 and R33. -/
def Obligations.IrqIsDoneAndEnabled : Prop :=
  State.reset.irq = false ∧ ∀ s : State, s.irq = (s.done && s.doneIe) ∧
    (s.done = true → (s.memWrite .w32 0x018 1).irq = true) ∧
    ((s.memWrite .w32 0x018 0).irq = false ∧ (s.memWrite .w32 0x018 0).done = s.done) ∧
    ∀ w : Word, w.getLsbD 1 = true → (s.memWrite .w32 0x004 w).irq = false ∧
      (s.memWrite .w32 0x004 w).errinfo = s.errinfo

/-! ### The six commands -/

/-- R140, R141: ENCODE completes for every operand and every IBUF: the range errors in their order,
and otherwise RESULT and exactly OBUF[0 .. n-1]. -/
def Obligations.EncodeCompletes : Prop :=
  decode 0x00000001 = .command .encode ∧ ∀ (s : State) (p : Pending), s.pending = some p →
    ∃ t, exec .encode s = .next t ∧
      (s.ibufBytes < p.arg1.toNat → Rejects s t .invalidArgument 1) ∧
      (p.arg1.toNat ≤ s.ibufBytes → s.obufBytes < (p.arg0.toNat + 4) / 5 →
        Rejects s t .invalidArgument 2) ∧
      (p.arg1.toNat ≤ s.ibufBytes → (p.arg0.toNat + 4) / 5 ≤ s.obufBytes →
        Succeeds s t ((p.arg0.toNat + 4) / 5) ∧
        WritesExactly s t ((p.arg0.toNat + 4) / 5) (fun k =>
          fwd (symbolAt s.ibufByte p.arg0.toNat p.arg1.toNat k)))

/-- R131, R132: a symbol value is the weighted sum of its five effective input bits. -/
def Obligations.SymbolIsItsFiveStreamBits : Prop :=
  ∀ (ib : Nat → Byte) (sb inlen k : Nat) (e : Nat → Nat),
    (∀ i, e i =
      if i < sb ∧ i / 8 < inlen then (ib (i / 8)).toNat / 2 ^ (7 - i % 8) % 2 else 0) →
    (symbolAt ib sb inlen k).toNat =
      e (5 * k) * 16 + e (5 * k + 1) * 8 + e (5 * k + 2) * 4 + e (5 * k + 3) * 2 + e (5 * k + 4)

/-- R170, R172, R202: DECODE completes for every operand and every IBUF: the range errors in their
order, then INVALID_SYMBOL at the least invalid index, and otherwise RESULT and exactly
OBUF[0 .. n-1]. -/
def Obligations.DecodeCompletes : Prop :=
  decode 0x00000002 = .command .decode ∧ ∀ (s : State) (p : Pending), s.pending = some p →
    ∃ t, exec .decode s = .next t ∧
      (s.ibufBytes < p.arg0.toNat → Rejects s t .invalidArgument 1) ∧
      (p.arg0.toNat ≤ s.ibufBytes → s.obufBytes < (5 * p.arg0.toNat + 7) / 8 →
        Rejects s t .invalidArgument 2) ∧
      (p.arg0.toNat ≤ s.ibufBytes → (5 * p.arg0.toNat + 7) / 8 ≤ s.obufBytes →
        (∀ k, k < p.arg0.toNat → entryInv (rev (s.ibufByte k)) = true →
          (∀ j, j < k → entryInv (rev (s.ibufByte j)) = false) →
          Rejects s t .invalidSymbol (BitVec.ofNat 32 k)) ∧
        ((∀ k, k < p.arg0.toNat → entryInv (rev (s.ibufByte k)) = false) →
          Succeeds s t ((5 * p.arg0.toNat + 7) / 8) ∧
          WritesExactly s t ((5 * p.arg0.toNat + 7) / 8) (outByte s.ibufByte p.arg0.toNat)))

/-- R163, R165: an output byte of DECODE is the weighted sum of its eight bits D(8b) to D(8b+7), the
bits past the last symbol being 0. -/
def Obligations.OutputByteIsItsEightStreamBits : Prop :=
  ∀ (ib : Nat → Byte) (count b : Nat) (d : Nat → Nat),
    (∀ i, d i =
      if i < 5 * count then (entryIdx (rev (ib (i / 5)))).toNat / 2 ^ (4 - i % 5) % 2 else 0) →
    (outByte ib count b).toNat =
      d (8 * b) * 128 + d (8 * b + 1) * 64 + d (8 * b + 2) * 32 + d (8 * b + 3) * 16 +
        d (8 * b + 4) * 8 + d (8 * b + 5) * 4 + d (8 * b + 6) * 2 + d (8 * b + 7)

/-- R190: ENC_SIZE completes for every operand with the exact ceil(arg0 / 5), and writes no OBUF
byte. -/
def Obligations.EncSizeCompletes : Prop :=
  decode 0x00000003 = .command .encSize ∧ ∀ (s : State) (p : Pending), s.pending = some p →
    ∃ t, exec .encSize s = .next t ∧ Succeeds s t ((p.arg0.toNat + 4) / 5) ∧
      (∀ k, t.obufByte k = s.obufByte k) ∧ t.obuf = s.obuf

/-- R191, R162: DEC_SIZE completes for every operand with the exact value of the jump-table formula,
which is ceil(5 * arg0 / 8), and writes no OBUF byte. -/
def Obligations.DecSizeCompletes : Prop :=
  decode 0x00000004 = .command .decSize ∧ ∀ (s : State) (p : Pending), s.pending = some p →
    ∃ t, exec .decSize s = .next t ∧
      Succeeds s t (5 * (p.arg0.toNat / 8) + [0, 1, 2, 2, 3, 4, 4, 5].getD (p.arg0.toNat % 8) 0) ∧
      t.result.toNat = (5 * p.arg0.toNat + 7) / 8 ∧
      (∀ k, t.obufByte k = s.obufByte k) ∧ t.obuf = s.obuf

/-- R115: LUT_FWD gives the ASCII code of the alphabet character, and rejects every index above 31. -/
def Obligations.LutFwdCompletes : Prop :=
  decode 0x00000005 = .command .lutFwd ∧ ∀ (s : State) (p : Pending), s.pending = some p →
    ∃ t, exec .lutFwd s = .next t ∧
      (31 < p.arg0.toNat → Rejects s t .invalidArgument 3) ∧
      (p.arg0.toNat ≤ 31 →
        Succeeds s t
          (("ybndrfg8ejkmcpqxot1uwisza345h769".toList)[p.arg0.toNat]?.map Char.toNat).get! ∧
        (∀ k, t.obufByte k = s.obufByte k) ∧ t.obuf = s.obuf)

/-- R116, R111: LUT_REV gives the index of an alphabet byte and 0x20 for every other byte, and rejects
every value above 255. -/
def Obligations.LutRevCompletes : Prop :=
  decode 0x00000006 = .command .lutRev ∧ ∀ (s : State) (p : Pending), s.pending = some p →
    ∃ t, exec .lutRev s = .next t ∧
      (255 < p.arg0.toNat → Rejects s t .invalidArgument 3) ∧
      (p.arg0.toNat ≤ 255 →
        (∀ i : Symbol, (fwd i).toNat = p.arg0.toNat → Succeeds s t i.toNat) ∧
        ((∀ i : Symbol, (fwd i).toNat ≠ p.arg0.toNat) → Succeeds s t 0x20) ∧
        (∀ k, t.obufByte k = s.obufByte k) ∧ t.obuf = s.obuf)

/-- R111: REV gives the index of an alphabet byte and 0x20 for every other byte. R112: the 32 characters
are distinct and printable, and every valid entry comes from the alphabet (the last two are the spec's
own inferences there). -/
def Obligations.ReverseTableInvertsTheAlphabet : Prop :=
  (∀ i j : Symbol, fwd i = fwd j → i = j) ∧
  (∀ i : Symbol, rev (fwd i) = i.setWidth 6) ∧
  (∀ b : Byte, (∀ i : Symbol, fwd i ≠ b) → rev b = 0x20) ∧
  (∀ b : Byte, entryInv (rev b) = false → fwd (entryIdx (rev b)) = b) ∧
  (∀ i : Symbol, 0x21 ≤ (fwd i).toNat ∧ (fwd i).toNat ≤ 0x7E)

/-- R95, R205: what every command leaves unchanged, success or error. -/
def Obligations.CommandsKeepTheirFrame : Prop :=
  ∀ (i : Instr) (s t : State), exec i s = .next t → Completes s t

/-- R205, R206: a command that completes with an error changes neither RESULT nor OBUF, and no sizing
command does so. -/
def Obligations.ErrorsLeaveNoOutput : Prop :=
  ∀ (i : Instr) (s t : State), exec i s = .next t → t.err ≠ .noError →
    i ≠ .encSize ∧ i ≠ .decSize ∧ t.result = s.result ∧ t.obuf = s.obuf ∧
      ∀ k, t.obufByte k = s.obufByte k

/-- R96, R78: the outcome of a command depends on nothing but the latched operands, the capacities and
IBUF: two states that agree on those complete alike, whatever their other registers hold. -/
def Obligations.OutcomeDependsOnlyOnTheLatchAndIbuf : Prop :=
  ∀ (i : Instr) (s1 s2 t1 t2 : State) (p1 p2 : Pending), s1.pending = some p1 → s2.pending = some p2 →
    p1.arg0 = p2.arg0 → p1.arg1 = p2.arg1 → s1.ibufBytes = s2.ibufBytes →
    s1.obufBytes = s2.obufBytes → (∀ k, s1.ibufByte k = s2.ibufByte k) →
    exec i s1 = .next t1 → exec i s2 = .next t2 →
    t1.err = t2.err ∧
    (t1.err = .noError → t1.result = t2.result) ∧
    (t1.err ≠ .noError → t1.errinfo = t2.errinfo) ∧
    ∀ k, (t1.obufByte k = s1.obufByte k ∧ t2.obufByte k = s2.obufByte k) ∨
      t1.obufByte k = t2.obufByte k

/-! ### Laws of the codec -/

/-- R192 (the spec's own inference): the laws of the two sizing functions. -/
def Obligations.SizingLaws : Prop :=
  (∀ n, encSize n = (n + 4) / 5) ∧ (∀ n, decSize n = (5 * n + 7) / 8) ∧
  (∀ n, (n + 7) / 8 ≤ decSize (encSize n)) ∧ decSize (encSize 24) ≠ (24 + 7) / 8 ∧
  (∀ n, n = 0 ∨ n = 1 ∨ n = 40 → decSize (encSize n) = (n + 7) / 8) ∧
  ∀ n, encSize (5 * n) = n

/-- R134 (the spec's own inference): the byte cursor of both datapaths at the start of symbol `k`. -/
def Obligations.CursorHasItsClosedForm : Prop :=
  ∀ k, (cursorAt k).k = k ∧ (cursorAt k).phase = k % 8 ∧
    (cursorAt k).c = 5 * (k / 8) + [0, 0, 1, 1, 2, 3, 3, 4].getD (k % 8) 0

/-- R134, R137 (the spec's own inference): the phase-table datapath of the encoder gives the symbol values
of the stream rules, for every count, length and IBUF content, and its outputs FWD[v] are the OBUF
writes of ENCODE. -/
def Obligations.EncoderDatapathAgreesWithTheStream : Prop :=
  ∀ (ib : Nat → Byte) (sb inlen n : Nat),
    encodeValues (maskedByte ib sb inlen) n Cursor.start =
      (List.range n).map (fun k => (symbolAt ib sb inlen k).setWidth 8) ∧
    (List.range n).zip (encodeDatapath (maskedByte ib sb inlen) n Cursor.start) =
      encodeWrites ib sb inlen n

/-- R166 (the spec's own inference): the phase-table datapath of the decoder, from the zero scratch of
R165, gives the output bytes of the stream rules. -/
def Obligations.DecoderDatapathAgreesWithTheStream : Prop :=
  ∀ (ib : Nat → Byte) (count : Nat),
    decodeDatapath (fun k => (symbolValue ib k).setWidth 8) count Cursor.start
        (zeroScratch (decSize count)) =
      (List.range (decSize count)).map (outByte ib count)

/-- R167 (the spec's own inference): the decoder datapath never writes a scratch byte at index `n` or
above, neither under the cursor nor by a spill. -/
def Obligations.DecoderDatapathStaysBelowItsLength : Prop :=
  ∀ count k, k < count → (cursorAt k).c < decSize count ∧
    ∀ v : Byte, (decodePhaseSpill (cursorAt k).phase v).isSome = true →
      (cursorAt k).c + 1 < decSize count

/-- R168, first law (the spec's own inference): encoding the bytes that DECODE gives for valid symbols
gives those symbols back. -/
def Obligations.EncodeInvertsDecode : Prop :=
  ∀ (icap ocap count : Nat) (ib ob : Nat → Byte), count ≤ icap → decSize count ≤ icap →
    count ≤ ocap → decSize count ≤ ocap → (∀ k, k < count → entryInv (rev (ib k)) = false) →
    decodeResult icap ocap ib count =
      .ok (BitVec.ofNat 32 (decSize count))
        ((List.range (decSize count)).map (fun b => (b, outByte ib count b))) ∧
    ((∀ b, b < decSize count → ob b = outByte ib count b) →
      encodeResult icap ocap ob (5 * count) (decSize count) =
        .ok (BitVec.ofNat 32 count) ((List.range count).map (fun k => (k, ib k))))

/-- R168, second law (the spec's own inference): decoding the symbols that ENCODE gives for a multiple of
5 bits gives the encoded bits back, the extra bits of the last byte being 0. -/
def Obligations.DecodeInvertsEncode : Prop :=
  ∀ (icap ocap sb inlen : Nat) (ib jb : Nat → Byte), sb % 5 = 0 → sb ≤ 8 * inlen → inlen ≤ icap →
    sb / 5 ≤ icap → sb / 5 ≤ ocap →
    ∃ out : Nat → Byte,
      encodeResult icap ocap ib sb inlen =
        .ok (BitVec.ofNat 32 (sb / 5))
          ((List.range (sb / 5)).map (fun k => (k, fwd (symbolAt ib sb inlen k)))) ∧
      ((∀ k, k < sb / 5 → jb k = fwd (symbolAt ib sb inlen k)) →
        decodeResult icap ocap jb (sb / 5) =
          .ok (BitVec.ofNat 32 ((sb + 7) / 8))
            ((List.range ((sb + 7) / 8)).map (fun b => (b, out b)))) ∧
      (∀ b, b < sb / 8 → out b = ib b) ∧
      (sb % 8 ≠ 0 → ∀ j, j < 8 →
        (out (sb / 8)).getLsbD (7 - j) = (decide (j < sb % 8) && (ib (sb / 8)).getLsbD (7 - j)))

/-! ### Host scripts -/

/-- R100: the `wait` loop reads STATUS once a step, and the host leaves it exactly when BUSY is 0. The
loop as one input (notes/assumptions/6.md) and the record of the response (notes/assumptions/7.md) are
the model's choices. -/
def Obligations.WaitLoopPollsUntilIdle : Prop :=
  ∀ (s : State) (rest : List Input), s.inputs = .pollBusy :: rest → (∀ p, ¬ s.Completing p) →
    ∃ t, step s = .next t ∧ t.response = some { data := s.statusWord, error := false } ∧
      (s.busy = true → t.inputs = s.inputs) ∧ (s.busy = false → t.inputs = rest) ∧
      t = { s.elapse with inputs := t.inputs, response := t.response }

/-- R100: the pseudo-instructions have their expansions, `wait` being the model's polling input
(notes/assumptions/6.md). -/
def Obligations.PseudoInstructionsExpand : Prop :=
  (∀ i, scriptCmd i =
    [.access { dir := .write, width := .w32, offset := 0x000, data := encode i }]) ∧
  (∀ v, scriptArg0 v = [.access { dir := .write, width := .w32, offset := 0x008, data := v }]) ∧
  (∀ v, scriptArg1 v = [.access { dir := .write, width := .w32, offset := 0x00C, data := v }]) ∧
  scriptAck = [.access { dir := .write, width := .w32, offset := 0x004, data := 0x102 }] ∧
  scriptWait = [.pollBusy] ∧
  (∀ i a, scriptRun1 i a = scriptArg0 a ++ scriptCmd i ++ [.pollBusy]) ∧
  (∀ i a b, scriptRun2 i a b = scriptArg0 a ++ (scriptArg1 b ++ scriptCmd i) ++ [.pollBusy]) ∧
  (∀ off c rest, scriptLoad off (c :: rest) =
    .access { dir := .write, width := .w8, offset := off, data := (BitVec.ofNat 8 c.toNat).setWidth 32 } ::
      scriptLoad (off + 1) rest) ∧
  scriptLoad 0x10000 ['f', 'o'] =
    [.access { dir := .write, width := .w8, offset := 0x10000, data := 0x66 },
      .access { dir := .write, width := .w8, offset := 0x10001, data := 0x6F }]

/-- R101: the record of an access can be read back, whatever its offset and data. That a record of width 8
with data above 0x000000FF, on which R101 is silent, keeps all its data is the model's choice
(notes/assumptions/16.md and 14.md). -/
def Obligations.RecordsReadBack : Prop :=
  ∀ (dir : Dir) (width : Width) (offset : Offset) (data : Word), width = .w8 ∨ width = .w32 →
    ∃ cs, recordOf dir width offset data = some cs ∧
      readRecord cs = some (dir, width, offset, data)

/-! ### The host's turn -/

/-- R13, R71, R74, R243: a step in which no command completes takes the input at the head. A read answers
MemRead, a write has the effect of MemWrite and answers its response; with an idle host, or none, only the
delay of a pending command shortens. The queue of inputs (notes/assumptions/6.md), the delay as a countdown
(notes/assumptions/4.md) and the record of the response (notes/assumptions/7.md) are the model's choices. -/
def Obligations.EachStepTakesTheNextInput : Prop :=
  ∀ s : State, (∀ p, ¬ s.Completing p) →
    s.elapse = { s with pending := s.pending.map (fun p => { p with wait := p.wait - 1 }) } ∧
    (s.inputs = [] → step s = .next s.elapse) ∧
    (∀ rest, s.inputs = .idle :: rest → step s = .next { s.elapse with inputs := rest }) ∧
    ∀ a rest, s.inputs = .access a :: rest → ∃ t, step s = .next t ∧
      (a.dir = .read →
        t = { s.elapse with
          inputs := rest
          response := some (s.memRead a.width a.offset) }) ∧
      (a.dir = .write →
        t = { s.elapse.memWrite a.width a.offset a.data with
          inputs := rest
          response := some (s.writeResponse a.width a.offset) })
end

