-- ==== Sys2Proof/Laws/State.lean ====
section
/-!
SUPPORT. For each named update of the state, what every field holds after it. A proof cites these and
does not unfold a record update.
-/

namespace Sys2Proof.Machine

/-! ### startCommand -/

@[simp] theorem startCommand_ibufBytes (s : State) (w : Word) :
    (s.startCommand w).ibufBytes = s.ibufBytes := rfl
@[simp] theorem startCommand_obufBytes (s : State) (w : Word) :
    (s.startCommand w).obufBytes = s.obufBytes := rfl
@[simp] theorem startCommand_cmd (s : State) (w : Word) : (s.startCommand w).cmd = w := rfl
@[simp] theorem startCommand_busy (s : State) (w : Word) : (s.startCommand w).busy = true := rfl
@[simp] theorem startCommand_done (s : State) (w : Word) : (s.startCommand w).done = false := rfl
@[simp] theorem startCommand_err (s : State) (w : Word) : (s.startCommand w).err = .noError := rfl
@[simp] theorem startCommand_busywr (s : State) (w : Word) :
    (s.startCommand w).busywr = s.busywr := rfl
@[simp] theorem startCommand_arg0 (s : State) (w : Word) : (s.startCommand w).arg0 = s.arg0 := rfl
@[simp] theorem startCommand_arg1 (s : State) (w : Word) : (s.startCommand w).arg1 = s.arg1 := rfl
@[simp] theorem startCommand_result (s : State) (w : Word) :
    (s.startCommand w).result = s.result := rfl
@[simp] theorem startCommand_errinfo (s : State) (w : Word) : (s.startCommand w).errinfo = 0 := rfl
@[simp] theorem startCommand_doneIe (s : State) (w : Word) :
    (s.startCommand w).doneIe = s.doneIe := rfl
@[simp] theorem startCommand_ibuf (s : State) (w : Word) : (s.startCommand w).ibuf = s.ibuf := rfl
@[simp] theorem startCommand_obuf (s : State) (w : Word) : (s.startCommand w).obuf = s.obuf := rfl
@[simp] theorem startCommand_pending (s : State) (w : Word) :
    (s.startCommand w).pending = some { cmdword := w, arg0 := s.arg0, arg1 := s.arg1, wait := Config.extraLatency s.starts w s.arg0 s.arg1 } := rfl
@[simp] theorem startCommand_cursor (s : State) (w : Word) :
    (s.startCommand w).cursor = Cursor.start := rfl
@[simp] theorem startCommand_inputs (s : State) (w : Word) :
    (s.startCommand w).inputs = s.inputs := rfl
@[simp] theorem startCommand_response (s : State) (w : Word) :
    (s.startCommand w).response = s.response := rfl
@[simp] theorem startCommand_epoch (s : State) (w : Word) :
    (s.startCommand w).epoch = s.epoch := rfl
@[simp] theorem startCommand_starts (s : State) (w : Word) :
    (s.startCommand w).starts = s.starts + 1 := rfl

/-! ### finishCommand -/

@[simp] theorem finishCommand_ibufBytes (s : State) :
    (s.finishCommand).ibufBytes = s.ibufBytes := rfl
@[simp] theorem finishCommand_obufBytes (s : State) :
    (s.finishCommand).obufBytes = s.obufBytes := rfl
@[simp] theorem finishCommand_cmd (s : State) : (s.finishCommand).cmd = s.cmd := rfl
@[simp] theorem finishCommand_busy (s : State) : (s.finishCommand).busy = false := rfl
@[simp] theorem finishCommand_done (s : State) : (s.finishCommand).done = true := rfl
@[simp] theorem finishCommand_err (s : State) : (s.finishCommand).err = s.err := rfl
@[simp] theorem finishCommand_busywr (s : State) : (s.finishCommand).busywr = s.busywr := rfl
@[simp] theorem finishCommand_arg0 (s : State) : (s.finishCommand).arg0 = s.arg0 := rfl
@[simp] theorem finishCommand_arg1 (s : State) : (s.finishCommand).arg1 = s.arg1 := rfl
@[simp] theorem finishCommand_result (s : State) : (s.finishCommand).result = s.result := rfl
@[simp] theorem finishCommand_errinfo (s : State) : (s.finishCommand).errinfo = s.errinfo := rfl
@[simp] theorem finishCommand_doneIe (s : State) : (s.finishCommand).doneIe = s.doneIe := rfl
@[simp] theorem finishCommand_ibuf (s : State) : (s.finishCommand).ibuf = s.ibuf := rfl
@[simp] theorem finishCommand_obuf (s : State) : (s.finishCommand).obuf = s.obuf := rfl
@[simp] theorem finishCommand_pending (s : State) : (s.finishCommand).pending = none := rfl
@[simp] theorem finishCommand_cursor (s : State) :
    (s.finishCommand).cursor = freeCursor s.starts := rfl
@[simp] theorem finishCommand_inputs (s : State) : (s.finishCommand).inputs = s.inputs := rfl
@[simp] theorem finishCommand_response (s : State) : (s.finishCommand).response = s.response := rfl
@[simp] theorem finishCommand_epoch (s : State) : (s.finishCommand).epoch = s.epoch := rfl
@[simp] theorem finishCommand_starts (s : State) : (s.finishCommand).starts = s.starts := rfl

/-! ### takeError -/

@[simp] theorem takeError_ibufBytes (s : State) (code : ErrCode) (info : Word) :
    (s.takeError code info).ibufBytes = s.ibufBytes := rfl
@[simp] theorem takeError_obufBytes (s : State) (code : ErrCode) (info : Word) :
    (s.takeError code info).obufBytes = s.obufBytes := rfl
@[simp] theorem takeError_cmd (s : State) (code : ErrCode) (info : Word) :
    (s.takeError code info).cmd = s.cmd := rfl
@[simp] theorem takeError_busy (s : State) (code : ErrCode) (info : Word) :
    (s.takeError code info).busy = false := rfl
@[simp] theorem takeError_done (s : State) (code : ErrCode) (info : Word) :
    (s.takeError code info).done = true := rfl
@[simp] theorem takeError_err (s : State) (code : ErrCode) (info : Word) :
    (s.takeError code info).err = code := rfl
@[simp] theorem takeError_busywr (s : State) (code : ErrCode) (info : Word) :
    (s.takeError code info).busywr = s.busywr := rfl
@[simp] theorem takeError_arg0 (s : State) (code : ErrCode) (info : Word) :
    (s.takeError code info).arg0 = s.arg0 := rfl
@[simp] theorem takeError_arg1 (s : State) (code : ErrCode) (info : Word) :
    (s.takeError code info).arg1 = s.arg1 := rfl
@[simp] theorem takeError_result (s : State) (code : ErrCode) (info : Word) :
    (s.takeError code info).result = s.result := rfl
@[simp] theorem takeError_errinfo (s : State) (code : ErrCode) (info : Word) :
    (s.takeError code info).errinfo = info := rfl
@[simp] theorem takeError_doneIe (s : State) (code : ErrCode) (info : Word) :
    (s.takeError code info).doneIe = s.doneIe := rfl
@[simp] theorem takeError_ibuf (s : State) (code : ErrCode) (info : Word) :
    (s.takeError code info).ibuf = s.ibuf := rfl
@[simp] theorem takeError_obuf (s : State) (code : ErrCode) (info : Word) :
    (s.takeError code info).obuf = s.obuf := rfl
@[simp] theorem takeError_pending (s : State) (code : ErrCode) (info : Word) :
    (s.takeError code info).pending = none := rfl
@[simp] theorem takeError_cursor (s : State) (code : ErrCode) (info : Word) :
    (s.takeError code info).cursor = freeCursor s.starts := rfl
@[simp] theorem takeError_inputs (s : State) (code : ErrCode) (info : Word) :
    (s.takeError code info).inputs = s.inputs := rfl
@[simp] theorem takeError_response (s : State) (code : ErrCode) (info : Word) :
    (s.takeError code info).response = s.response := rfl
@[simp] theorem takeError_epoch (s : State) (code : ErrCode) (info : Word) :
    (s.takeError code info).epoch = s.epoch := rfl
@[simp] theorem takeError_starts (s : State) (code : ErrCode) (info : Word) :
    (s.takeError code info).starts = s.starts := rfl

/-! ### commitResult -/

@[simp] theorem commitResult_ibufBytes (s : State) (res : Word) (writes : List Host.Cell) :
    (s.commitResult res writes).ibufBytes = s.ibufBytes := rfl
@[simp] theorem commitResult_obufBytes (s : State) (res : Word) (writes : List Host.Cell) :
    (s.commitResult res writes).obufBytes = s.obufBytes := rfl
@[simp] theorem commitResult_cmd (s : State) (res : Word) (writes : List Host.Cell) :
    (s.commitResult res writes).cmd = s.cmd := rfl
@[simp] theorem commitResult_busy (s : State) (res : Word) (writes : List Host.Cell) :
    (s.commitResult res writes).busy = false := rfl
@[simp] theorem commitResult_done (s : State) (res : Word) (writes : List Host.Cell) :
    (s.commitResult res writes).done = true := rfl
@[simp] theorem commitResult_err (s : State) (res : Word) (writes : List Host.Cell) :
    (s.commitResult res writes).err = .noError := rfl
@[simp] theorem commitResult_busywr (s : State) (res : Word) (writes : List Host.Cell) :
    (s.commitResult res writes).busywr = s.busywr := rfl
@[simp] theorem commitResult_arg0 (s : State) (res : Word) (writes : List Host.Cell) :
    (s.commitResult res writes).arg0 = s.arg0 := rfl
@[simp] theorem commitResult_arg1 (s : State) (res : Word) (writes : List Host.Cell) :
    (s.commitResult res writes).arg1 = s.arg1 := rfl
@[simp] theorem commitResult_result (s : State) (res : Word) (writes : List Host.Cell) :
    (s.commitResult res writes).result = res := rfl
@[simp] theorem commitResult_errinfo (s : State) (res : Word) (writes : List Host.Cell) :
    (s.commitResult res writes).errinfo = s.errinfo := rfl
@[simp] theorem commitResult_doneIe (s : State) (res : Word) (writes : List Host.Cell) :
    (s.commitResult res writes).doneIe = s.doneIe := rfl
@[simp] theorem commitResult_ibuf (s : State) (res : Word) (writes : List Host.Cell) :
    (s.commitResult res writes).ibuf = s.ibuf := rfl
@[simp] theorem commitResult_obuf (s : State) (res : Word) (writes : List Host.Cell) :
    (s.commitResult res writes).obuf = s.obuf.setAll writes := rfl
@[simp] theorem commitResult_pending (s : State) (res : Word) (writes : List Host.Cell) :
    (s.commitResult res writes).pending = none := rfl
@[simp] theorem commitResult_cursor (s : State) (res : Word) (writes : List Host.Cell) :
    (s.commitResult res writes).cursor = freeCursor s.starts := rfl
@[simp] theorem commitResult_inputs (s : State) (res : Word) (writes : List Host.Cell) :
    (s.commitResult res writes).inputs = s.inputs := rfl
@[simp] theorem commitResult_response (s : State) (res : Word) (writes : List Host.Cell) :
    (s.commitResult res writes).response = s.response := rfl
@[simp] theorem commitResult_epoch (s : State) (res : Word) (writes : List Host.Cell) :
    (s.commitResult res writes).epoch = s.epoch := rfl
@[simp] theorem commitResult_starts (s : State) (res : Word) (writes : List Host.Cell) :
    (s.commitResult res writes).starts = s.starts := rfl

/-! ### acknowledge -/

@[simp] theorem acknowledge_ibufBytes (s : State) : (s.acknowledge).ibufBytes = s.ibufBytes := rfl
@[simp] theorem acknowledge_obufBytes (s : State) : (s.acknowledge).obufBytes = s.obufBytes := rfl
@[simp] theorem acknowledge_cmd (s : State) : (s.acknowledge).cmd = s.cmd := rfl
@[simp] theorem acknowledge_busy (s : State) : (s.acknowledge).busy = s.busy := rfl
@[simp] theorem acknowledge_done (s : State) : (s.acknowledge).done = false := rfl
@[simp] theorem acknowledge_err (s : State) : (s.acknowledge).err = .noError := rfl
@[simp] theorem acknowledge_busywr (s : State) : (s.acknowledge).busywr = s.busywr := rfl
@[simp] theorem acknowledge_arg0 (s : State) : (s.acknowledge).arg0 = s.arg0 := rfl
@[simp] theorem acknowledge_arg1 (s : State) : (s.acknowledge).arg1 = s.arg1 := rfl
@[simp] theorem acknowledge_result (s : State) : (s.acknowledge).result = s.result := rfl
@[simp] theorem acknowledge_errinfo (s : State) : (s.acknowledge).errinfo = s.errinfo := rfl
@[simp] theorem acknowledge_doneIe (s : State) : (s.acknowledge).doneIe = s.doneIe := rfl
@[simp] theorem acknowledge_ibuf (s : State) : (s.acknowledge).ibuf = s.ibuf := rfl
@[simp] theorem acknowledge_obuf (s : State) : (s.acknowledge).obuf = s.obuf := rfl
@[simp] theorem acknowledge_pending (s : State) : (s.acknowledge).pending = s.pending := rfl
@[simp] theorem acknowledge_cursor (s : State) : (s.acknowledge).cursor = s.cursor := rfl
@[simp] theorem acknowledge_inputs (s : State) : (s.acknowledge).inputs = s.inputs := rfl
@[simp] theorem acknowledge_response (s : State) : (s.acknowledge).response = s.response := rfl
@[simp] theorem acknowledge_epoch (s : State) : (s.acknowledge).epoch = s.epoch := rfl
@[simp] theorem acknowledge_starts (s : State) : (s.acknowledge).starts = s.starts := rfl

/-! ### dropWrite -/

@[simp] theorem dropWrite_ibufBytes (s : State) : (s.dropWrite).ibufBytes = s.ibufBytes := rfl
@[simp] theorem dropWrite_obufBytes (s : State) : (s.dropWrite).obufBytes = s.obufBytes := rfl
@[simp] theorem dropWrite_cmd (s : State) : (s.dropWrite).cmd = s.cmd := rfl
@[simp] theorem dropWrite_busy (s : State) : (s.dropWrite).busy = s.busy := rfl
@[simp] theorem dropWrite_done (s : State) : (s.dropWrite).done = s.done := rfl
@[simp] theorem dropWrite_err (s : State) : (s.dropWrite).err = s.err := rfl
@[simp] theorem dropWrite_busywr (s : State) : (s.dropWrite).busywr = true := rfl
@[simp] theorem dropWrite_arg0 (s : State) : (s.dropWrite).arg0 = s.arg0 := rfl
@[simp] theorem dropWrite_arg1 (s : State) : (s.dropWrite).arg1 = s.arg1 := rfl
@[simp] theorem dropWrite_result (s : State) : (s.dropWrite).result = s.result := rfl
@[simp] theorem dropWrite_errinfo (s : State) : (s.dropWrite).errinfo = s.errinfo := rfl
@[simp] theorem dropWrite_doneIe (s : State) : (s.dropWrite).doneIe = s.doneIe := rfl
@[simp] theorem dropWrite_ibuf (s : State) : (s.dropWrite).ibuf = s.ibuf := rfl
@[simp] theorem dropWrite_obuf (s : State) : (s.dropWrite).obuf = s.obuf := rfl
@[simp] theorem dropWrite_pending (s : State) : (s.dropWrite).pending = s.pending := rfl
@[simp] theorem dropWrite_cursor (s : State) : (s.dropWrite).cursor = s.cursor := rfl
@[simp] theorem dropWrite_inputs (s : State) : (s.dropWrite).inputs = s.inputs := rfl
@[simp] theorem dropWrite_response (s : State) : (s.dropWrite).response = s.response := rfl
@[simp] theorem dropWrite_epoch (s : State) : (s.dropWrite).epoch = s.epoch := rfl
@[simp] theorem dropWrite_starts (s : State) : (s.dropWrite).starts = s.starts := rfl

/-! ### elapse -/

@[simp] theorem elapse_ibufBytes (s : State) : (s.elapse).ibufBytes = s.ibufBytes := rfl
@[simp] theorem elapse_obufBytes (s : State) : (s.elapse).obufBytes = s.obufBytes := rfl
@[simp] theorem elapse_cmd (s : State) : (s.elapse).cmd = s.cmd := rfl
@[simp] theorem elapse_busy (s : State) : (s.elapse).busy = s.busy := rfl
@[simp] theorem elapse_done (s : State) : (s.elapse).done = s.done := rfl
@[simp] theorem elapse_err (s : State) : (s.elapse).err = s.err := rfl
@[simp] theorem elapse_busywr (s : State) : (s.elapse).busywr = s.busywr := rfl
@[simp] theorem elapse_arg0 (s : State) : (s.elapse).arg0 = s.arg0 := rfl
@[simp] theorem elapse_arg1 (s : State) : (s.elapse).arg1 = s.arg1 := rfl
@[simp] theorem elapse_result (s : State) : (s.elapse).result = s.result := rfl
@[simp] theorem elapse_errinfo (s : State) : (s.elapse).errinfo = s.errinfo := rfl
@[simp] theorem elapse_doneIe (s : State) : (s.elapse).doneIe = s.doneIe := rfl
@[simp] theorem elapse_ibuf (s : State) : (s.elapse).ibuf = s.ibuf := rfl
@[simp] theorem elapse_obuf (s : State) : (s.elapse).obuf = s.obuf := rfl
@[simp] theorem elapse_pending (s : State) :
    (s.elapse).pending = s.pending.map (fun p => { p with wait := p.wait - 1 }) := rfl
@[simp] theorem elapse_cursor (s : State) : (s.elapse).cursor = s.cursor := rfl
@[simp] theorem elapse_inputs (s : State) : (s.elapse).inputs = s.inputs := rfl
@[simp] theorem elapse_response (s : State) : (s.elapse).response = s.response := rfl
@[simp] theorem elapse_epoch (s : State) : (s.elapse).epoch = s.epoch := rfl
@[simp] theorem elapse_starts (s : State) : (s.elapse).starts = s.starts := rfl

/-! ### writeInten -/

@[simp] theorem writeInten_ibufBytes (s : State) (w : Word) :
    (s.writeInten w).ibufBytes = s.ibufBytes := rfl
@[simp] theorem writeInten_obufBytes (s : State) (w : Word) :
    (s.writeInten w).obufBytes = s.obufBytes := rfl
@[simp] theorem writeInten_cmd (s : State) (w : Word) : (s.writeInten w).cmd = s.cmd := rfl
@[simp] theorem writeInten_busy (s : State) (w : Word) : (s.writeInten w).busy = s.busy := rfl
@[simp] theorem writeInten_done (s : State) (w : Word) : (s.writeInten w).done = s.done := rfl
@[simp] theorem writeInten_err (s : State) (w : Word) : (s.writeInten w).err = s.err := rfl
@[simp] theorem writeInten_busywr (s : State) (w : Word) : (s.writeInten w).busywr = s.busywr := rfl
@[simp] theorem writeInten_arg0 (s : State) (w : Word) : (s.writeInten w).arg0 = s.arg0 := rfl
@[simp] theorem writeInten_arg1 (s : State) (w : Word) : (s.writeInten w).arg1 = s.arg1 := rfl
@[simp] theorem writeInten_result (s : State) (w : Word) : (s.writeInten w).result = s.result := rfl
@[simp] theorem writeInten_errinfo (s : State) (w : Word) :
    (s.writeInten w).errinfo = s.errinfo := rfl
@[simp] theorem writeInten_doneIe (s : State) (w : Word) :
    (s.writeInten w).doneIe = w.getLsbD 0 := rfl
@[simp] theorem writeInten_ibuf (s : State) (w : Word) : (s.writeInten w).ibuf = s.ibuf := rfl
@[simp] theorem writeInten_obuf (s : State) (w : Word) : (s.writeInten w).obuf = s.obuf := rfl
@[simp] theorem writeInten_pending (s : State) (w : Word) :
    (s.writeInten w).pending = s.pending := rfl
@[simp] theorem writeInten_cursor (s : State) (w : Word) : (s.writeInten w).cursor = s.cursor := rfl
@[simp] theorem writeInten_inputs (s : State) (w : Word) : (s.writeInten w).inputs = s.inputs := rfl
@[simp] theorem writeInten_response (s : State) (w : Word) :
    (s.writeInten w).response = s.response := rfl
@[simp] theorem writeInten_epoch (s : State) (w : Word) : (s.writeInten w).epoch = s.epoch := rfl
@[simp] theorem writeInten_starts (s : State) (w : Word) : (s.writeInten w).starts = s.starts := rfl

/-! ### storeIbuf -/

@[simp] theorem storeIbuf_ibufBytes (s : State) (writes : List Host.Cell) :
    (s.storeIbuf writes).ibufBytes = s.ibufBytes := rfl
@[simp] theorem storeIbuf_obufBytes (s : State) (writes : List Host.Cell) :
    (s.storeIbuf writes).obufBytes = s.obufBytes := rfl
@[simp] theorem storeIbuf_cmd (s : State) (writes : List Host.Cell) :
    (s.storeIbuf writes).cmd = s.cmd := rfl
@[simp] theorem storeIbuf_busy (s : State) (writes : List Host.Cell) :
    (s.storeIbuf writes).busy = s.busy := rfl
@[simp] theorem storeIbuf_done (s : State) (writes : List Host.Cell) :
    (s.storeIbuf writes).done = s.done := rfl
@[simp] theorem storeIbuf_err (s : State) (writes : List Host.Cell) :
    (s.storeIbuf writes).err = s.err := rfl
@[simp] theorem storeIbuf_busywr (s : State) (writes : List Host.Cell) :
    (s.storeIbuf writes).busywr = s.busywr := rfl
@[simp] theorem storeIbuf_arg0 (s : State) (writes : List Host.Cell) :
    (s.storeIbuf writes).arg0 = s.arg0 := rfl
@[simp] theorem storeIbuf_arg1 (s : State) (writes : List Host.Cell) :
    (s.storeIbuf writes).arg1 = s.arg1 := rfl
@[simp] theorem storeIbuf_result (s : State) (writes : List Host.Cell) :
    (s.storeIbuf writes).result = s.result := rfl
@[simp] theorem storeIbuf_errinfo (s : State) (writes : List Host.Cell) :
    (s.storeIbuf writes).errinfo = s.errinfo := rfl
@[simp] theorem storeIbuf_doneIe (s : State) (writes : List Host.Cell) :
    (s.storeIbuf writes).doneIe = s.doneIe := rfl
@[simp] theorem storeIbuf_ibuf (s : State) (writes : List Host.Cell) :
    (s.storeIbuf writes).ibuf = s.ibuf.setAll writes := rfl
@[simp] theorem storeIbuf_obuf (s : State) (writes : List Host.Cell) :
    (s.storeIbuf writes).obuf = s.obuf := rfl
@[simp] theorem storeIbuf_pending (s : State) (writes : List Host.Cell) :
    (s.storeIbuf writes).pending = s.pending := rfl
@[simp] theorem storeIbuf_cursor (s : State) (writes : List Host.Cell) :
    (s.storeIbuf writes).cursor = s.cursor := rfl
@[simp] theorem storeIbuf_inputs (s : State) (writes : List Host.Cell) :
    (s.storeIbuf writes).inputs = s.inputs := rfl
@[simp] theorem storeIbuf_response (s : State) (writes : List Host.Cell) :
    (s.storeIbuf writes).response = s.response := rfl
@[simp] theorem storeIbuf_epoch (s : State) (writes : List Host.Cell) :
    (s.storeIbuf writes).epoch = s.epoch := rfl
@[simp] theorem storeIbuf_starts (s : State) (writes : List Host.Cell) :
    (s.storeIbuf writes).starts = s.starts := rfl

/-! ### resetEvent -/

@[simp] theorem resetEvent_ibufBytes (s : State) : (s.resetEvent).ibufBytes = s.ibufBytes := rfl
@[simp] theorem resetEvent_obufBytes (s : State) : (s.resetEvent).obufBytes = s.obufBytes := rfl
@[simp] theorem resetEvent_cmd (s : State) : (s.resetEvent).cmd = 0 := rfl
@[simp] theorem resetEvent_busy (s : State) : (s.resetEvent).busy = false := rfl
@[simp] theorem resetEvent_done (s : State) : (s.resetEvent).done = false := rfl
@[simp] theorem resetEvent_err (s : State) : (s.resetEvent).err = .noError := rfl
@[simp] theorem resetEvent_busywr (s : State) : (s.resetEvent).busywr = false := rfl
@[simp] theorem resetEvent_arg0 (s : State) : (s.resetEvent).arg0 = 0 := rfl
@[simp] theorem resetEvent_arg1 (s : State) : (s.resetEvent).arg1 = 0 := rfl
@[simp] theorem resetEvent_result (s : State) : (s.resetEvent).result = 0 := rfl
@[simp] theorem resetEvent_errinfo (s : State) : (s.resetEvent).errinfo = 0 := rfl
@[simp] theorem resetEvent_doneIe (s : State) : (s.resetEvent).doneIe = false := rfl
@[simp] theorem resetEvent_ibuf (s : State) : (s.resetEvent).ibuf = [] := rfl
@[simp] theorem resetEvent_obuf (s : State) : (s.resetEvent).obuf = [] := rfl
@[simp] theorem resetEvent_pending (s : State) : (s.resetEvent).pending = none := rfl
@[simp] theorem resetEvent_cursor (s : State) : (s.resetEvent).cursor = Cursor.start := rfl
@[simp] theorem resetEvent_inputs (s : State) : (s.resetEvent).inputs = s.inputs := rfl
@[simp] theorem resetEvent_response (s : State) : (s.resetEvent).response = none := rfl
@[simp] theorem resetEvent_epoch (s : State) : (s.resetEvent).epoch = s.epoch + 1 := rfl
@[simp] theorem resetEvent_starts (s : State) : (s.resetEvent).starts = s.starts := rfl

/-! ### latchCommand -/

@[simp] theorem latchCommand_ibufBytes (s : State) (w : Word) :
    (s.latchCommand w).ibufBytes = s.ibufBytes := rfl
@[simp] theorem latchCommand_obufBytes (s : State) (w : Word) :
    (s.latchCommand w).obufBytes = s.obufBytes := rfl
@[simp] theorem latchCommand_cmd (s : State) (w : Word) : (s.latchCommand w).cmd = w := rfl
@[simp] theorem latchCommand_busy (s : State) (w : Word) : (s.latchCommand w).busy = true := rfl
@[simp] theorem latchCommand_done (s : State) (w : Word) : (s.latchCommand w).done = false := rfl
@[simp] theorem latchCommand_err (s : State) (w : Word) : (s.latchCommand w).err = .noError := rfl
@[simp] theorem latchCommand_busywr (s : State) (w : Word) :
    (s.latchCommand w).busywr = s.busywr := rfl
@[simp] theorem latchCommand_arg0 (s : State) (w : Word) : (s.latchCommand w).arg0 = s.arg0 := rfl
@[simp] theorem latchCommand_arg1 (s : State) (w : Word) : (s.latchCommand w).arg1 = s.arg1 := rfl
@[simp] theorem latchCommand_result (s : State) (w : Word) :
    (s.latchCommand w).result = s.result := rfl
@[simp] theorem latchCommand_errinfo (s : State) (w : Word) : (s.latchCommand w).errinfo = 0 := rfl
@[simp] theorem latchCommand_doneIe (s : State) (w : Word) :
    (s.latchCommand w).doneIe = s.doneIe := rfl
@[simp] theorem latchCommand_ibuf (s : State) (w : Word) : (s.latchCommand w).ibuf = s.ibuf := rfl
@[simp] theorem latchCommand_obuf (s : State) (w : Word) : (s.latchCommand w).obuf = s.obuf := rfl
@[simp] theorem latchCommand_pending (s : State) (w : Word) :
    (s.latchCommand w).pending = some { cmdword := w, arg0 := s.arg0, arg1 := s.arg1, wait := 0 } := rfl
@[simp] theorem latchCommand_cursor (s : State) (w : Word) :
    (s.latchCommand w).cursor = Cursor.start := rfl
@[simp] theorem latchCommand_inputs (s : State) (w : Word) :
    (s.latchCommand w).inputs = holdReset s.inputs := rfl
@[simp] theorem latchCommand_response (s : State) (w : Word) :
    (s.latchCommand w).response = s.response := rfl
@[simp] theorem latchCommand_epoch (s : State) (w : Word) :
    (s.latchCommand w).epoch = s.epoch := rfl
@[simp] theorem latchCommand_starts (s : State) (w : Word) :
    (s.latchCommand w).starts = s.starts := rfl

/-! ### withArg0 -/

@[simp] theorem withArg0_ibufBytes (s : State) (w : Word) : (s.withArg0 w).ibufBytes = s.ibufBytes := rfl
@[simp] theorem withArg0_obufBytes (s : State) (w : Word) : (s.withArg0 w).obufBytes = s.obufBytes := rfl
@[simp] theorem withArg0_cmd (s : State) (w : Word) : (s.withArg0 w).cmd = s.cmd := rfl
@[simp] theorem withArg0_busy (s : State) (w : Word) : (s.withArg0 w).busy = s.busy := rfl
@[simp] theorem withArg0_done (s : State) (w : Word) : (s.withArg0 w).done = s.done := rfl
@[simp] theorem withArg0_err (s : State) (w : Word) : (s.withArg0 w).err = s.err := rfl
@[simp] theorem withArg0_busywr (s : State) (w : Word) : (s.withArg0 w).busywr = s.busywr := rfl
@[simp] theorem withArg0_arg0 (s : State) (w : Word) : (s.withArg0 w).arg0 = w := rfl
@[simp] theorem withArg0_arg1 (s : State) (w : Word) : (s.withArg0 w).arg1 = s.arg1 := rfl
@[simp] theorem withArg0_result (s : State) (w : Word) : (s.withArg0 w).result = s.result := rfl
@[simp] theorem withArg0_errinfo (s : State) (w : Word) : (s.withArg0 w).errinfo = s.errinfo := rfl
@[simp] theorem withArg0_doneIe (s : State) (w : Word) : (s.withArg0 w).doneIe = s.doneIe := rfl
@[simp] theorem withArg0_ibuf (s : State) (w : Word) : (s.withArg0 w).ibuf = s.ibuf := rfl
@[simp] theorem withArg0_obuf (s : State) (w : Word) : (s.withArg0 w).obuf = s.obuf := rfl
@[simp] theorem withArg0_pending (s : State) (w : Word) : (s.withArg0 w).pending = s.pending := rfl
@[simp] theorem withArg0_cursor (s : State) (w : Word) : (s.withArg0 w).cursor = s.cursor := rfl
@[simp] theorem withArg0_inputs (s : State) (w : Word) : (s.withArg0 w).inputs = s.inputs := rfl
@[simp] theorem withArg0_response (s : State) (w : Word) : (s.withArg0 w).response = s.response := rfl
@[simp] theorem withArg0_epoch (s : State) (w : Word) : (s.withArg0 w).epoch = s.epoch := rfl
@[simp] theorem withArg0_starts (s : State) (w : Word) : (s.withArg0 w).starts = s.starts := rfl

/-! ### withArg1 -/

@[simp] theorem withArg1_ibufBytes (s : State) (w : Word) : (s.withArg1 w).ibufBytes = s.ibufBytes := rfl
@[simp] theorem withArg1_obufBytes (s : State) (w : Word) : (s.withArg1 w).obufBytes = s.obufBytes := rfl
@[simp] theorem withArg1_cmd (s : State) (w : Word) : (s.withArg1 w).cmd = s.cmd := rfl
@[simp] theorem withArg1_busy (s : State) (w : Word) : (s.withArg1 w).busy = s.busy := rfl
@[simp] theorem withArg1_done (s : State) (w : Word) : (s.withArg1 w).done = s.done := rfl
@[simp] theorem withArg1_err (s : State) (w : Word) : (s.withArg1 w).err = s.err := rfl
@[simp] theorem withArg1_busywr (s : State) (w : Word) : (s.withArg1 w).busywr = s.busywr := rfl
@[simp] theorem withArg1_arg0 (s : State) (w : Word) : (s.withArg1 w).arg0 = s.arg0 := rfl
@[simp] theorem withArg1_arg1 (s : State) (w : Word) : (s.withArg1 w).arg1 = w := rfl
@[simp] theorem withArg1_result (s : State) (w : Word) : (s.withArg1 w).result = s.result := rfl
@[simp] theorem withArg1_errinfo (s : State) (w : Word) : (s.withArg1 w).errinfo = s.errinfo := rfl
@[simp] theorem withArg1_doneIe (s : State) (w : Word) : (s.withArg1 w).doneIe = s.doneIe := rfl
@[simp] theorem withArg1_ibuf (s : State) (w : Word) : (s.withArg1 w).ibuf = s.ibuf := rfl
@[simp] theorem withArg1_obuf (s : State) (w : Word) : (s.withArg1 w).obuf = s.obuf := rfl
@[simp] theorem withArg1_pending (s : State) (w : Word) : (s.withArg1 w).pending = s.pending := rfl
@[simp] theorem withArg1_cursor (s : State) (w : Word) : (s.withArg1 w).cursor = s.cursor := rfl
@[simp] theorem withArg1_inputs (s : State) (w : Word) : (s.withArg1 w).inputs = s.inputs := rfl
@[simp] theorem withArg1_response (s : State) (w : Word) : (s.withArg1 w).response = s.response := rfl
@[simp] theorem withArg1_epoch (s : State) (w : Word) : (s.withArg1 w).epoch = s.epoch := rfl
@[simp] theorem withArg1_starts (s : State) (w : Word) : (s.withArg1 w).starts = s.starts := rfl

/-! ### withInputs -/

@[simp] theorem withInputs_ibufBytes (s : State) (l : List Input) : (s.withInputs l).ibufBytes = s.ibufBytes := rfl
@[simp] theorem withInputs_obufBytes (s : State) (l : List Input) : (s.withInputs l).obufBytes = s.obufBytes := rfl
@[simp] theorem withInputs_cmd (s : State) (l : List Input) : (s.withInputs l).cmd = s.cmd := rfl
@[simp] theorem withInputs_busy (s : State) (l : List Input) : (s.withInputs l).busy = s.busy := rfl
@[simp] theorem withInputs_done (s : State) (l : List Input) : (s.withInputs l).done = s.done := rfl
@[simp] theorem withInputs_err (s : State) (l : List Input) : (s.withInputs l).err = s.err := rfl
@[simp] theorem withInputs_busywr (s : State) (l : List Input) : (s.withInputs l).busywr = s.busywr := rfl
@[simp] theorem withInputs_arg0 (s : State) (l : List Input) : (s.withInputs l).arg0 = s.arg0 := rfl
@[simp] theorem withInputs_arg1 (s : State) (l : List Input) : (s.withInputs l).arg1 = s.arg1 := rfl
@[simp] theorem withInputs_result (s : State) (l : List Input) : (s.withInputs l).result = s.result := rfl
@[simp] theorem withInputs_errinfo (s : State) (l : List Input) : (s.withInputs l).errinfo = s.errinfo := rfl
@[simp] theorem withInputs_doneIe (s : State) (l : List Input) : (s.withInputs l).doneIe = s.doneIe := rfl
@[simp] theorem withInputs_ibuf (s : State) (l : List Input) : (s.withInputs l).ibuf = s.ibuf := rfl
@[simp] theorem withInputs_obuf (s : State) (l : List Input) : (s.withInputs l).obuf = s.obuf := rfl
@[simp] theorem withInputs_pending (s : State) (l : List Input) : (s.withInputs l).pending = s.pending := rfl
@[simp] theorem withInputs_cursor (s : State) (l : List Input) : (s.withInputs l).cursor = s.cursor := rfl
@[simp] theorem withInputs_inputs (s : State) (l : List Input) : (s.withInputs l).inputs = l := rfl
@[simp] theorem withInputs_response (s : State) (l : List Input) : (s.withInputs l).response = s.response := rfl
@[simp] theorem withInputs_epoch (s : State) (l : List Input) : (s.withInputs l).epoch = s.epoch := rfl
@[simp] theorem withInputs_starts (s : State) (l : List Input) : (s.withInputs l).starts = s.starts := rfl

/-! ### withResponse -/

@[simp] theorem withResponse_ibufBytes (s : State) (r : Response) : (s.withResponse r).ibufBytes = s.ibufBytes := rfl
@[simp] theorem withResponse_obufBytes (s : State) (r : Response) : (s.withResponse r).obufBytes = s.obufBytes := rfl
@[simp] theorem withResponse_cmd (s : State) (r : Response) : (s.withResponse r).cmd = s.cmd := rfl
@[simp] theorem withResponse_busy (s : State) (r : Response) : (s.withResponse r).busy = s.busy := rfl
@[simp] theorem withResponse_done (s : State) (r : Response) : (s.withResponse r).done = s.done := rfl
@[simp] theorem withResponse_err (s : State) (r : Response) : (s.withResponse r).err = s.err := rfl
@[simp] theorem withResponse_busywr (s : State) (r : Response) : (s.withResponse r).busywr = s.busywr := rfl
@[simp] theorem withResponse_arg0 (s : State) (r : Response) : (s.withResponse r).arg0 = s.arg0 := rfl
@[simp] theorem withResponse_arg1 (s : State) (r : Response) : (s.withResponse r).arg1 = s.arg1 := rfl
@[simp] theorem withResponse_result (s : State) (r : Response) : (s.withResponse r).result = s.result := rfl
@[simp] theorem withResponse_errinfo (s : State) (r : Response) : (s.withResponse r).errinfo = s.errinfo := rfl
@[simp] theorem withResponse_doneIe (s : State) (r : Response) : (s.withResponse r).doneIe = s.doneIe := rfl
@[simp] theorem withResponse_ibuf (s : State) (r : Response) : (s.withResponse r).ibuf = s.ibuf := rfl
@[simp] theorem withResponse_obuf (s : State) (r : Response) : (s.withResponse r).obuf = s.obuf := rfl
@[simp] theorem withResponse_pending (s : State) (r : Response) : (s.withResponse r).pending = s.pending := rfl
@[simp] theorem withResponse_cursor (s : State) (r : Response) : (s.withResponse r).cursor = s.cursor := rfl
@[simp] theorem withResponse_inputs (s : State) (r : Response) : (s.withResponse r).inputs = s.inputs := rfl
@[simp] theorem withResponse_response (s : State) (r : Response) : (s.withResponse r).response = some r := rfl
@[simp] theorem withResponse_epoch (s : State) (r : Response) : (s.withResponse r).epoch = s.epoch := rfl
@[simp] theorem withResponse_starts (s : State) (r : Response) : (s.withResponse r).starts = s.starts := rfl

/-! ### writeStatus -/

@[simp] theorem writeStatus_done (s : State) (w : Word) :
    (s.writeStatus w).done = (!w.getLsbD 1 && s.done) := by
  unfold State.writeStatus
  cases w.getLsbD 1 <;> cases w.getLsbD 8 <;> simp
@[simp] theorem writeStatus_err (s : State) (w : Word) :
    (s.writeStatus w).err = if w.getLsbD 1 then .noError else s.err := by
  unfold State.writeStatus
  cases w.getLsbD 1 <;> cases w.getLsbD 8 <;> simp
@[simp] theorem writeStatus_busywr (s : State) (w : Word) :
    (s.writeStatus w).busywr = (!w.getLsbD 8 && s.busywr) := by
  unfold State.writeStatus
  cases w.getLsbD 1 <;> cases w.getLsbD 8 <;> simp
@[simp] theorem writeStatus_ibufBytes (s : State) (w : Word) : (s.writeStatus w).ibufBytes = s.ibufBytes := by
  unfold State.writeStatus
  cases w.getLsbD 1 <;> cases w.getLsbD 8 <;> rfl
@[simp] theorem writeStatus_obufBytes (s : State) (w : Word) : (s.writeStatus w).obufBytes = s.obufBytes := by
  unfold State.writeStatus
  cases w.getLsbD 1 <;> cases w.getLsbD 8 <;> rfl
@[simp] theorem writeStatus_cmd (s : State) (w : Word) : (s.writeStatus w).cmd = s.cmd := by
  unfold State.writeStatus
  cases w.getLsbD 1 <;> cases w.getLsbD 8 <;> rfl
@[simp] theorem writeStatus_busy (s : State) (w : Word) : (s.writeStatus w).busy = s.busy := by
  unfold State.writeStatus
  cases w.getLsbD 1 <;> cases w.getLsbD 8 <;> rfl
@[simp] theorem writeStatus_arg0 (s : State) (w : Word) : (s.writeStatus w).arg0 = s.arg0 := by
  unfold State.writeStatus
  cases w.getLsbD 1 <;> cases w.getLsbD 8 <;> rfl
@[simp] theorem writeStatus_arg1 (s : State) (w : Word) : (s.writeStatus w).arg1 = s.arg1 := by
  unfold State.writeStatus
  cases w.getLsbD 1 <;> cases w.getLsbD 8 <;> rfl
@[simp] theorem writeStatus_result (s : State) (w : Word) : (s.writeStatus w).result = s.result := by
  unfold State.writeStatus
  cases w.getLsbD 1 <;> cases w.getLsbD 8 <;> rfl
@[simp] theorem writeStatus_errinfo (s : State) (w : Word) : (s.writeStatus w).errinfo = s.errinfo := by
  unfold State.writeStatus
  cases w.getLsbD 1 <;> cases w.getLsbD 8 <;> rfl
@[simp] theorem writeStatus_doneIe (s : State) (w : Word) : (s.writeStatus w).doneIe = s.doneIe := by
  unfold State.writeStatus
  cases w.getLsbD 1 <;> cases w.getLsbD 8 <;> rfl
@[simp] theorem writeStatus_ibuf (s : State) (w : Word) : (s.writeStatus w).ibuf = s.ibuf := by
  unfold State.writeStatus
  cases w.getLsbD 1 <;> cases w.getLsbD 8 <;> rfl
@[simp] theorem writeStatus_obuf (s : State) (w : Word) : (s.writeStatus w).obuf = s.obuf := by
  unfold State.writeStatus
  cases w.getLsbD 1 <;> cases w.getLsbD 8 <;> rfl
@[simp] theorem writeStatus_pending (s : State) (w : Word) : (s.writeStatus w).pending = s.pending := by
  unfold State.writeStatus
  cases w.getLsbD 1 <;> cases w.getLsbD 8 <;> rfl
@[simp] theorem writeStatus_cursor (s : State) (w : Word) : (s.writeStatus w).cursor = s.cursor := by
  unfold State.writeStatus
  cases w.getLsbD 1 <;> cases w.getLsbD 8 <;> rfl
@[simp] theorem writeStatus_inputs (s : State) (w : Word) : (s.writeStatus w).inputs = s.inputs := by
  unfold State.writeStatus
  cases w.getLsbD 1 <;> cases w.getLsbD 8 <;> rfl
@[simp] theorem writeStatus_response (s : State) (w : Word) : (s.writeStatus w).response = s.response := by
  unfold State.writeStatus
  cases w.getLsbD 1 <;> cases w.getLsbD 8 <;> rfl
@[simp] theorem writeStatus_epoch (s : State) (w : Word) : (s.writeStatus w).epoch = s.epoch := by
  unfold State.writeStatus
  cases w.getLsbD 1 <;> cases w.getLsbD 8 <;> rfl
@[simp] theorem writeStatus_starts (s : State) (w : Word) : (s.writeStatus w).starts = s.starts := by
  unfold State.writeStatus
  cases w.getLsbD 1 <;> cases w.getLsbD 8 <;> rfl

end Sys2Proof.Machine
end

