-- ==== Sys2Proof/Laws/Memory.lean ====
section
/-!
SUPPORT. The laws of a buffer: a read after a write, the canonical form, and what the writes of a
command leave. The canonical form is kept by every operation on a buffer.
-/

namespace Sys2Proof.Machine

@[simp] theorem memory_get?_nil (a : Nat) : Memory.get? [] a = none := rfl

theorem memory_get?_set_same (m : Memory) (a : Nat) (v : Byte) : (m.set a v).get? a = some v := by
  induction m with
  | nil => simp [Memory.set, Memory.get?]
  | cons c rest ih =>
    obtain ⟨b, u⟩ := c
    simp only [Memory.set]
    split
    · simp [Memory.get?]
    · split
      · simp [Memory.get?]
      · simp [Memory.get?, *]

theorem memory_get?_set_ne (m : Memory) (a b : Nat) (v : Byte) (h : b ≠ a) :
    (m.set a v).get? b = m.get? b := by
  induction m with
  | nil => simp [Memory.set, Memory.get?, h]
  | cons c rest ih =>
    obtain ⟨d, u⟩ := c
    simp only [Memory.set]
    split
    · simp [Memory.get?, h]
    · split
      · rename_i h2
        simp [Memory.get?, h, ← h2]
      · simp [Memory.get?, ih]

/-- A read after a write: the value written at that index, and the old byte everywhere else. -/
theorem memory_get?_set (m : Memory) (a b : Nat) (v : Byte) :
    (m.set a v).get? b = if b = a then some v else m.get? b := by
  split
  · subst b; exact memory_get?_set_same m a v
  · exact memory_get?_set_ne m a b v ‹_›

@[simp] theorem memory_setAll_nil (m : Memory) : m.setAll [] = m := rfl

@[simp] theorem memory_setAll_cons (m : Memory) (c : Host.Cell) (rest : List Host.Cell) :
    m.setAll (c :: rest) = (m.set c.1 c.2).setAll rest := rfl

/-- The writes of a list leave every index that they do not name alone. -/
theorem memory_get?_setAll_other (ws : List Host.Cell) (m : Memory) (a : Nat)
    (h : ∀ c ∈ ws, c.1 ≠ a) : (m.setAll ws).get? a = m.get? a := by
  induction ws generalizing m with
  | nil => rfl
  | cons c rest ih =>
    rw [memory_setAll_cons, ih _ (fun d hd => h d (List.mem_cons_of_mem _ hd)),
      memory_get?_set_ne _ _ _ _ (h c List.mem_cons_self).symm]

theorem memory_setAll_append (ws vs : List Host.Cell) (m : Memory) :
    m.setAll (ws ++ vs) = (m.setAll ws).setAll vs := by
  simp [Memory.setAll, List.foldl_append]

/-- Writing `f k` at every index below `n`: those indices hold it, and the others are as before. -/
theorem memory_get?_setAll_range (n : Nat) (f : Nat → Byte) (m : Memory) (a : Nat) :
    (m.setAll ((List.range n).map (fun k => (k, f k)))).get? a =
      if a < n then some (f a) else m.get? a := by
  induction n with
  | zero => simp
  | succ n ih =>
    rw [List.range_succ, List.map_append, memory_setAll_append]
    simp only [List.map_cons, List.map_nil, memory_setAll_cons, memory_setAll_nil,
      memory_get?_set, ih]
    by_cases h1 : a = n
    · subst h1; simp
    · by_cases h2 : a < n
      · simp [h1, h2, Nat.lt_succ_of_lt h2]
      · simp [h1, h2, show ¬ a < n + 1 by omega]

/-! ### The canonical form -/

theorem memory_mem_set (m : Memory) (a : Nat) (v : Byte) (c : Host.Cell) (h : c ∈ m.set a v) :
    c = (a, v) ∨ c ∈ m := by
  induction m with
  | nil => simpa [Memory.set] using h
  | cons d rest ih =>
    obtain ⟨b, u⟩ := d
    simp only [Memory.set] at h
    split at h
    · simpa using h
    · split at h
      · rcases List.mem_cons.1 h with h | h
        · exact .inl h
        · exact .inr (List.mem_cons_of_mem _ h)
      · rcases List.mem_cons.1 h with h | h
        · exact .inr (h ▸ List.mem_cons_self)
        · exact (ih h).imp id (List.mem_cons_of_mem _)

theorem memory_wf_nil (cap : Nat) : Memory.wf cap [] := ⟨List.Pairwise.nil, by simp⟩

/-- A write inside the buffer keeps the canonical form. -/
theorem memory_wf_set (cap : Nat) (m : Memory) (a : Nat) (v : Byte) (h : m.wf cap) (ha : a < cap) :
    (m.set a v).wf cap := by
  obtain ⟨hp, hc⟩ := h
  refine ⟨?_, fun c hm => ?_⟩
  · clear hc
    induction m with
    | nil => simp [Memory.set]
    | cons d rest ih =>
      obtain ⟨b, u⟩ := d
      simp only [Memory.set]
      have hr := List.pairwise_cons.1 hp
      split
      · rename_i hlt
        refine List.pairwise_cons.2 ⟨fun c hm => ?_, hp⟩
        rcases List.mem_cons.1 hm with rfl | hm
        · exact hlt
        · exact Nat.lt_trans hlt (hr.1 c hm)
      · split
        · rename_i heq
          subst heq
          exact List.pairwise_cons.2 ⟨hr.1, hr.2⟩
        · refine List.pairwise_cons.2 ⟨fun c hm => ?_, ih hr.2⟩
          rcases memory_mem_set _ _ _ _ hm with rfl | hm
          · show b < a
            omega
          · exact hr.1 c hm
  · rcases memory_mem_set _ _ _ _ hm with rfl | hm
    · exact ha
    · exact hc c hm

/-- The writes of a command or of a host access keep the canonical form if they stay inside. -/
theorem memory_wf_setAll (cap : Nat) (ws : List Host.Cell) (m : Memory) (h : m.wf cap)
    (hw : ∀ c ∈ ws, c.1 < cap) : (m.setAll ws).wf cap := by
  induction ws generalizing m with
  | nil => exact h
  | cons c rest ih =>
    exact ih _ (memory_wf_set _ _ _ _ h (hw c List.mem_cons_self))
      (fun d hd => hw d (List.mem_cons_of_mem _ hd))

/-! ### The bytes of the two buffers -/

/-- IBUF bytes depend on the buffer and the epoch only. -/
theorem ibufByte_congr (s t : State) (h : t.ibuf = s.ibuf) (he : t.epoch = s.epoch) (i : Nat) :
    t.ibufByte i = s.ibufByte i := by
  simp only [State.ibufByte, h, he]

/-- OBUF bytes depend on the buffer and the epoch only. -/
theorem obufByte_congr (s t : State) (h : t.obuf = s.obuf) (he : t.epoch = s.epoch) (i : Nat) :
    t.obufByte i = s.obufByte i := by
  simp only [State.obufByte, h, he]

/-- A byte that is listed reads as listed. -/
theorem ibufByte_of_get? (s : State) (i : Nat) (v : Byte) (h : s.ibuf.get? i = some v) :
    s.ibufByte i = v := by simp only [State.ibufByte, h]

/-- A byte that is listed reads as listed. -/
theorem obufByte_of_get? (s : State) (i : Nat) (v : Byte) (h : s.obuf.get? i = some v) :
    s.obufByte i = v := by simp only [State.obufByte, h]

end Sys2Proof.Machine
end

