-- ==== Sys2Proof/Laws/Bus.lean ====
section
/-!
SUPPORT. What a host access can do, said once: which target each access has, the cases of a host write,
and what every access and every host turn leaves alone.
-/

namespace Sys2Proof.Machine

/-! ### Targets -/

/-- R63: the target of an access to the CSR region. -/
theorem targetOf_csr (s : State) (width : Width) (off : Offset) (h : off.toNat < 0x100) :
    s.targetOf width off =
      if width = .w32 ∧ off.toNat % 4 = 0 then .csr (csrAt off.toNat) else .busError := by
  simp only [State.targetOf, h, if_true]

/-- R60: the target of an access to the IBUF window. -/
theorem targetOf_ibuf (s : State) (width : Width) (off : Offset) (h1 : 0x10000 ≤ off.toNat)
    (h2 : off.toNat < 0x20000) :
    s.targetOf width off =
      ibufTarget (off.toNat - 0x10000)
        (bufferLanes s.ibufBytes width (off.toNat - 0x10000)) := by
  have h3 : ¬ off.toNat < 0x100 := by omega
  unfold State.targetOf ibufBase obufBase
  dsimp only
  rw [if_neg h3, if_pos ⟨h1, h2⟩]

/-- R60: the target of an access to the OBUF window. -/
theorem targetOf_obuf (s : State) (width : Width) (off : Offset) (h1 : 0x20000 ≤ off.toNat)
    (h2 : off.toNat < 0x30000) :
    s.targetOf width off =
      obufTarget (off.toNat - 0x20000)
        (bufferLanes s.obufBytes width (off.toNat - 0x20000)) := by
  have h3 : ¬ off.toNat < 0x100 := by omega
  have h4 : ¬ (0x10000 ≤ off.toNat ∧ off.toNat < 0x20000) := by omega
  unfold State.targetOf ibufBase obufBase
  dsimp only
  rw [if_neg h3, if_neg h4, if_pos ⟨h1, h2⟩]

/-- R60: everything else is unmapped. -/
theorem targetOf_unmapped (s : State) (width : Width) (off : Offset)
    (h : (0x100 ≤ off.toNat ∧ off.toNat < 0x10000) ∨ 0x30000 ≤ off.toNat) :
    s.targetOf width off = .busError := by
  have h1 : ¬ off.toNat < 0x100 := by omega
  have h2 : ¬ (0x10000 ≤ off.toNat ∧ off.toNat < 0x20000) := by omega
  have h3 : ¬ (0x20000 ≤ off.toNat ∧ off.toNat < 0x30000) := by omega
  unfold State.targetOf ibufBase obufBase
  dsimp only
  rw [if_neg h1, if_neg h2, if_neg h3]

/-- The offset of a byte of the IBUF or OBUF window, as a number. -/
theorem toNat_windowOffset (base i : Nat) (hb : base ≤ 0x30000) (hi : i < 65536) :
    (BitVec.ofNat 18 (base + i)).toNat = base + i := by
  simp only [BitVec.toNat_ofNat]
  exact Nat.mod_eq_of_lt (by omega)

/-- R64: an 8-bit access to a byte of the buffer. -/
theorem bufferLanes_w8 (cap i : Nat) (h : i < cap) : bufferLanes cap .w8 i = some .one := by
  simp [bufferLanes, h]

/-- R64: an aligned 32-bit access wholly inside the buffer. -/
theorem bufferLanes_w32 (cap i : Nat) (h4 : i % 4 = 0) (h : i + 3 < cap) :
    bufferLanes cap .w32 i = some .four := by
  simp [bufferLanes, h, h4]

/-- R60, R64: the target of an 8-bit access to IBUF byte `i`. -/
theorem targetOf_ibuf_w8 (s : State) (i : Nat) (h : i < s.ibufBytes) (h2 : i < 65536) :
    s.targetOf .w8 (BitVec.ofNat 18 (0x10000 + i)) = .ibuf i .one := by
  have e := toNat_windowOffset 0x10000 i (by omega) h2
  rw [targetOf_ibuf s _ _ (by rw [e]; omega) (by rw [e]; omega), e, Nat.add_sub_cancel_left,
    bufferLanes_w8 _ _ h]
  rfl

/-- R60, R64: the target of an aligned 32-bit access to IBUF bytes `i` to `i+3`. -/
theorem targetOf_ibuf_w32 (s : State) (i : Nat) (h4 : i % 4 = 0) (h : i + 3 < s.ibufBytes)
    (h2 : i + 3 < 65536) : s.targetOf .w32 (BitVec.ofNat 18 (0x10000 + i)) = .ibuf i .four := by
  have e := toNat_windowOffset 0x10000 i (by omega) (by omega)
  rw [targetOf_ibuf s _ _ (by rw [e]; omega) (by rw [e]; omega), e, Nat.add_sub_cancel_left,
    bufferLanes_w32 _ _ h4 h]
  rfl

/-- R60, R64: the target of an 8-bit access to OBUF byte `i`. -/
theorem targetOf_obuf_w8 (s : State) (i : Nat) (h : i < s.obufBytes) (h2 : i < 65536) :
    s.targetOf .w8 (BitVec.ofNat 18 (0x20000 + i)) = .obuf i .one := by
  have e := toNat_windowOffset 0x20000 i (by omega) h2
  rw [targetOf_obuf s _ _ (by rw [e]; omega) (by rw [e]; omega), e, Nat.add_sub_cancel_left,
    bufferLanes_w8 _ _ h]
  rfl

/-- R60, R64: the target of an aligned 32-bit access to OBUF bytes `i` to `i+3`. -/
theorem targetOf_obuf_w32 (s : State) (i : Nat) (h4 : i % 4 = 0) (h : i + 3 < s.obufBytes)
    (h2 : i + 3 < 65536) : s.targetOf .w32 (BitVec.ofNat 18 (0x20000 + i)) = .obuf i .four := by
  have e := toNat_windowOffset 0x20000 i (by omega) (by omega)
  rw [targetOf_obuf s _ _ (by rw [e]; omega) (by rw [e]; omega), e, Nat.add_sub_cancel_left,
    bufferLanes_w32 _ _ h4 h]
  rfl

/-- R63: an aligned 32-bit write to the CSR region writes the register there, with no bus error. -/
theorem memWrite_csr (s : State) (off : Offset) (w : Word) (h : off.toNat < 0x100)
    (h4 : off.toNat % 4 = 0) :
    s.memWrite .w32 off w = s.writeCsr (csrAt off.toNat) w ∧
      (s.writeResponse .w32 off).error = false := by
  simp only [State.memWrite, State.writeResponse, targetOf_csr s _ _ h, h4, and_self, if_true,
    writeErrs]

/-- R63: an aligned 32-bit read of the CSR region reads the register there, with no bus error. -/
theorem memRead_csr (s : State) (off : Offset) (h : off.toNat < 0x100) (h4 : off.toNat % 4 = 0) :
    s.memRead .w32 off = { data := s.readCsr (csrAt off.toNat), error := false } := by
  simp only [State.memRead, targetOf_csr s _ _ h, h4, and_self, if_true]

/-- R34: the reserved offsets. -/
theorem csrAt_reserved (n : Nat) (h : 0x28 ≤ n) : csrAt n = .reserved := by
  unfold csrAt
  split <;> first | rfl | omega

/-- R64: the bytes an access stores are inside the buffer. -/
theorem laneWrites_inside (cap i : Nat) (width : Width) (lanes : Lanes) (w : Word)
    (h : bufferLanes cap width i = some lanes) : ∀ c ∈ laneWrites i w lanes, c.1 < cap := by
  unfold bufferLanes at h
  cases width with
  | w8 =>
    simp only [Option.ite_none_right_eq_some] at h
    obtain ⟨h1, h2⟩ := h
    cases h2
    simpa [laneWrites] using h1
  | w32 =>
    simp only [Option.ite_none_right_eq_some] at h
    obtain ⟨⟨h0, h1⟩, h2⟩ := h
    cases h2
    simp only [laneWrites, List.mem_cons, List.not_mem_nil, or_false]
    rintro c (rfl | rfl | rfl | rfl) <;> simp <;> omega
  | w16 => cases h
  | w64 => cases h

/-- R64: an access with a target in IBUF is one that IBUF serves. -/
theorem bufferLanes_of_targetOf_ibuf (s : State) (width : Width) (off : Offset) (i : Nat)
    (lanes : Lanes) (h : s.targetOf width off = .ibuf i lanes) :
    bufferLanes s.ibufBytes width i = some lanes := by
  by_cases h1 : off.toNat < 0x100
  · rw [targetOf_csr s width off h1] at h
    split at h <;> cases h
  · by_cases h2 : 0x10000 ≤ off.toNat ∧ off.toNat < 0x20000
    · rw [targetOf_ibuf s width off h2.1 h2.2] at h
      generalize off.toNat - 0x10000 = j at h
      cases hl : bufferLanes s.ibufBytes width j with
      | some l =>
        rw [hl] at h
        simp only [ibufTarget, Target.ibuf.injEq] at h
        rw [← h.1, ← h.2, hl]
      | none => simp [hl, ibufTarget] at h
    · by_cases h3 : 0x20000 ≤ off.toNat ∧ off.toNat < 0x30000
      · rw [targetOf_obuf s width off h3.1 h3.2] at h
        generalize off.toNat - 0x20000 = j at h
        cases hl : bufferLanes s.obufBytes width j <;> simp [hl, obufTarget] at h
      · rw [targetOf_unmapped s width off (by omega)] at h
        cases h

/-! ### What a host write can do -/

/-- A host write neither reads nor changes the inputs still to come. -/
theorem memWrite_withInputs (s : State) (l : List Input) (width : Width) (off : Offset) (v : Word) :
    (s.withInputs l).memWrite width off v = (s.memWrite width off v).withInputs l := by
  obtain ⟨_, _, _, busy, _, _, _, _, _, _, _, _, _, _, _, _, _, _, _, _⟩ := s
  unfold State.memWrite
  simp only [show ∀ s : State, (s.withInputs l).targetOf width off = s.targetOf width off from
    fun _ => rfl]
  split
  · rename_i r _
    cases r with
    | status =>
      simp only [State.writeCsr, State.writeStatus]
      cases v.getLsbD 1 <;> cases v.getLsbD 8 <;> rfl
    | _ => cases busy <;> rfl
  · cases busy <;> rfl
  · rfl
  · rfl

/-- The cases of a host write (R23, R25 to R28, R32 to R34, R44, R45, R61, R66). -/
theorem memWrite_cases (s : State) (width : Width) (off : Offset) (v : Word) :
    s.memWrite width off v = s ∨
    (s.busy = true ∧ s.memWrite width off v = s.dropWrite) ∨
    (s.busy = false ∧ s.memWrite width off v = s.startCommand v) ∨
    s.memWrite width off v = s.writeStatus v ∨
    (s.busy = false ∧ s.memWrite width off v = s.withArg0 v) ∨
    (s.busy = false ∧ s.memWrite width off v = s.withArg1 v) ∨
    (s.targetOf width off = .csr .inten ∧ s.memWrite width off v = s.writeInten v) ∨
    (s.busy = false ∧ ∃ ws, (∀ c ∈ ws, c.1 < s.ibufBytes) ∧
      s.memWrite width off v = s.storeIbuf ws) := by
  unfold State.memWrite
  split
  · rename_i r ht
    cases r <;> simp only [State.writeCsr, State.unlessBusy] <;> cases hb : s.busy <;> simp [ht]
  · rename_i i lanes ht
    simp only [State.unlessBusy]
    cases hb : s.busy
    · refine .inr (.inr (.inr (.inr (.inr (.inr (.inr ⟨rfl, laneWrites i v lanes, ?_, by simp⟩))))))
      exact laneWrites_inside _ _ _ _ _ (bufferLanes_of_targetOf_ibuf s width off i lanes ht)
    · simp
  · exact .inl rfl
  · exact .inl rfl

/-- What no host write changes: the capacities, RESULT, OBUF, the epoch and the inputs. -/
theorem memWrite_frame (s : State) (width : Width) (off : Offset) (v : Word) :
    (s.memWrite width off v).ibufBytes = s.ibufBytes ∧
    (s.memWrite width off v).obufBytes = s.obufBytes ∧
    (s.memWrite width off v).result = s.result ∧
    (s.memWrite width off v).obuf = s.obuf ∧
    (s.memWrite width off v).epoch = s.epoch ∧
    (s.memWrite width off v).inputs = s.inputs := by
  rcases memWrite_cases s width off v with
    h | ⟨-, h⟩ | ⟨-, h⟩ | h | ⟨-, h⟩ | ⟨-, h⟩ | ⟨-, h⟩ | ⟨-, ws, -, h⟩ <;> rw [h] <;> simp

/-- What a host write changes while BUSY is 1: flags and INTEN only. -/
theorem memWrite_busy (s : State) (width : Width) (off : Offset) (v : Word) (hb : s.busy = true) :
    s.memWrite width off v = s ∨ s.memWrite width off v = s.dropWrite ∨
      s.memWrite width off v = s.writeStatus v ∨ s.memWrite width off v = s.writeInten v := by
  rcases memWrite_cases s width off v with
    h | ⟨-, h⟩ | ⟨h, -⟩ | h | ⟨h, -⟩ | ⟨h, -⟩ | ⟨-, h⟩ | ⟨h, -⟩ <;> simp_all

/-- A host access is a write followed by the record of a response, or that record alone. -/
theorem hostAccess_cases (s : State) (a : Access) :
    (a.dir = .read ∧ s.hostAccess a = s.withResponse (s.memRead a.width a.offset)) ∨
    (a.dir = .write ∧ s.hostAccess a =
      (s.memWrite a.width a.offset a.data).withResponse (s.writeResponse a.width a.offset)) := by
  unfold State.hostAccess
  cases h : a.dir <;> simp

/-! ### What a host turn can do -/

/-- The cases of a host turn: nothing to take, a reset, a pause, or one access, after one step of the
pending command's delay. `r` is what remains of the inputs. -/
theorem hostTurn_cases (s : State) :
    (s.inputs = [] ∧ s.hostTurn = s.elapse) ∨
    (∃ rest, s.inputs = .reset :: rest ∧
      s.hostTurn = (s.elapse.withInputs rest).resetEvent) ∨
    (∃ rest, s.inputs = .idle :: rest ∧ s.hostTurn = s.elapse.withInputs rest) ∨
    (∃ rest a, s.inputs = .access a :: rest ∧
      s.hostTurn = (s.elapse.withInputs rest).hostAccess a) ∨
    (∃ rest r, s.inputs = .pollBusy :: rest ∧ (r = s.inputs ∨ r = rest) ∧
      s.hostTurn = (s.elapse.withInputs r).hostAccess pollAccess) := by
  unfold State.hostTurn
  cases h : s.inputs with
  | nil => exact .inl ⟨rfl, rfl⟩
  | cons i rest =>
    cases i with
    | access a => exact .inr (.inr (.inr (.inl ⟨rest, a, rfl, rfl⟩)))
    | pollBusy =>
      refine .inr (.inr (.inr (.inr ⟨rest, if s.busy then .pollBusy :: rest else rest, rfl, ?_, ?_⟩)))
      · cases s.busy <;> simp
      · simp [State.takeInput, h]
    | idle => exact .inr (.inr (.inl ⟨rest, rfl, rfl⟩))
    | reset => exact .inr (.inl ⟨rest, rfl, rfl⟩)

end Sys2Proof.Machine
end

