-- ==== Sys2Proof/Laws/Codec.lean ====
section
/-!
SUPPORT. The laws of the bit packing, of the alphabet ROM and of the outcome functions.
-/

namespace Sys2Proof.Machine

/-- Bit `j` of a packed field is the stream bit that many places from the end. -/
theorem packBits_getLsbD (w : Nat) (f : Nat → Bool) (j : Nat) :
    (packBits w f).getLsbD j = (decide (j < w) && f (w - 1 - j)) := by
  induction w generalizing f with
  | zero => simp [packBits]
  | succ w ih =>
    simp only [packBits, BitVec.getLsbD_cons]
    split
    · rename_i h; subst h; simp
    · rename_i h
      rw [ih]
      by_cases hj : j < w
      · have h1 : w - 1 - j + 1 = w - j := by omega
        simp [hj, h1, Nat.lt_succ_of_lt hj]
      · simp [hj, show ¬ j < w + 1 by omega]

/-- Counting from the most significant bit: place `j` of a packed field is stream bit `j`. -/
theorem packBits_getLsbD_msb (w : Nat) (f : Nat → Bool) (j : Nat) (h : j < w) :
    (packBits w f).getLsbD (w - 1 - j) = f j := by
  rw [packBits_getLsbD]
  have h1 : w - 1 - (w - 1 - j) = j := by omega
  simp [h1, show w - 1 - j < w by omega]

/-- Two packed fields with the same stream bits are equal. -/
theorem packBits_congr (w : Nat) (f g : Nat → Bool) (h : ∀ j, j < w → f j = g j) :
    packBits w f = packBits w g := by
  induction w generalizing f g with
  | zero => rfl
  | succ w ih =>
    simp only [packBits]
    rw [h 0 (by omega), ih _ _ (fun j hj => h (j + 1) (by omega))]

/-! ### The alphabet ROM -/

/-- REV of an alphabet character is its index, with INV 0. -/
theorem rev_fwd : ∀ i : Symbol, rev (fwd i) = i.setWidth 6 := by decide

theorem entryInv_rev_fwd : ∀ i : Symbol, entryInv (rev (fwd i)) = false := by decide

theorem entryIdx_rev_fwd : ∀ i : Symbol, entryIdx (rev (fwd i)) = i := by decide

/-! ### The sizes -/

/-- The entries of the jump table. -/
theorem jumpTable_getD (r : Nat) (h : r < 8) : jumpTable.getD r 0 = (5 * r + 7) / 8 := by
  have : ∀ r : Fin 8, jumpTable.getD r.val 0 = (5 * r.val + 7) / 8 := by decide
  exact this ⟨r, h⟩

/-- A size of at most 5/8 of a 32-bit count fits in RESULT. -/
theorem toNat_ofNat_word (n : Nat) (h : n < 2 ^ 32) : (BitVec.ofNat 32 n).toNat = n := by
  simp only [BitVec.toNat_ofNat]; exact Nat.mod_eq_of_lt h

/-! ### The symbol scan -/

/-- The scan finds nothing exactly when every symbol is valid. -/
theorem firstInvalid_eq_none (ib : Nat → Byte) (count : Nat) :
    firstInvalid ib count = none ↔ ∀ k, k < count → entryInv (rev (ib k)) = false := by
  simp [firstInvalid, List.find?_eq_none, symbolInvalid]

/-- The scan finds the least invalid index. -/
theorem firstInvalid_eq_some (ib : Nat → Byte) (count k : Nat) :
    firstInvalid ib count = some k ↔
      k < count ∧ entryInv (rev (ib k)) = true ∧ ∀ j, j < k → entryInv (rev (ib j)) = false := by
  unfold firstInvalid
  induction count with
  | zero => simp
  | succ n ih =>
    rw [List.range_succ, List.find?_append]
    cases hf : (List.range n).find? (symbolInvalid ib) with
    | some x =>
      rw [hf] at ih
      simp only [Option.some_or, Option.some.injEq]
      rw [Option.some.injEq] at ih
      constructor
      · intro h
        obtain ⟨h1, h2⟩ := ih.1 h
        exact ⟨by omega, h2⟩
      · rintro ⟨h1, h2, h3⟩
        have hx := List.find?_some hf
        have hm := List.mem_of_find?_eq_some hf
        rw [List.mem_range] at hm
        rcases Nat.lt_or_ge k n with hk | hk
        · exact ih.2 ⟨hk, h2, h3⟩
        · have : k = n := by omega
          subst this
          exact absurd (h3 x hm) (by simpa [symbolInvalid] using hx)
    | none =>
      simp only [Option.none_or, List.find?_cons, List.find?_nil]
      have hall : ∀ j, j < n → entryInv (rev (ib j)) = false :=
        (firstInvalid_eq_none ib n).1 hf
      cases hn : symbolInvalid ib n with
      | true =>
        simp only [Option.some.injEq]
        constructor
        · rintro rfl
          exact ⟨by omega, hn, hall⟩
        · rintro ⟨h1, h2, h3⟩
          rcases Nat.lt_or_ge k n with hk | hk
          · simp [hall k hk] at h2
          · omega
      | false =>
        simp only [reduceCtorEq, false_iff]
        rintro ⟨h1, h2, h3⟩
        rcases Nat.lt_or_ge k n with hk | hk
        · simp [hall k hk] at h2
        · have : k = n := by omega
          subst this
          simp [symbolInvalid, h2] at hn

/-! ### The outcomes -/

/-- R201, R210: the input range is checked first. -/
theorem encodeResult_inputRange (icap ocap : Nat) (ib : Nat → Byte) (sb inlen : Nat)
    (h : icap < inlen) : encodeResult icap ocap ib sb inlen = .err .invalidArgument 1 := by
  unfold encodeResult
  rw [if_pos h]
  rfl

/-- R201, R210: the output range is checked next. -/
theorem encodeResult_outputRange (icap ocap : Nat) (ib : Nat → Byte) (sb inlen : Nat)
    (h : inlen ≤ icap) (h2 : ocap < encSize sb) :
    encodeResult icap ocap ib sb inlen = .err .invalidArgument 2 := by
  unfold encodeResult
  rw [if_neg (Nat.not_lt.2 h), if_pos h2]
  rfl

/-- R140: ENCODE inside both ranges. -/
theorem encodeResult_ok (icap ocap : Nat) (ib : Nat → Byte) (sb inlen : Nat) (h : inlen ≤ icap)
    (h2 : encSize sb ≤ ocap) :
    encodeResult icap ocap ib sb inlen =
      .ok (BitVec.ofNat 32 (encSize sb)) (encodeWrites ib sb inlen (encSize sb)) := by
  unfold encodeResult
  rw [if_neg (Nat.not_lt.2 h), if_neg (Nat.not_lt.2 h2)]

/-- R201, R210: the input range is checked first. -/
theorem decodeResult_inputRange (icap ocap : Nat) (ib : Nat → Byte) (count : Nat)
    (h : icap < count) : decodeResult icap ocap ib count = .err .invalidArgument 1 := by
  unfold decodeResult
  rw [if_pos h]
  rfl

/-- R201, R210: the output range is checked next. -/
theorem decodeResult_outputRange (icap ocap : Nat) (ib : Nat → Byte) (count : Nat)
    (h : count ≤ icap) (h2 : ocap < decSize count) :
    decodeResult icap ocap ib count = .err .invalidArgument 2 := by
  unfold decodeResult
  rw [if_neg (Nat.not_lt.2 h), if_pos h2]
  rfl

/-- R170: DECODE inside both ranges, at an invalid symbol. -/
theorem decodeResult_invalid (icap ocap : Nat) (ib : Nat → Byte) (count k : Nat)
    (h : count ≤ icap) (h2 : decSize count ≤ ocap) (hk : firstInvalid ib count = some k) :
    decodeResult icap ocap ib count = .err .invalidSymbol (BitVec.ofNat 32 k) := by
  unfold decodeResult
  rw [if_neg (Nat.not_lt.2 h), if_neg (Nat.not_lt.2 h2), hk]

/-- R170: DECODE inside both ranges, all symbols valid. -/
theorem decodeResult_ok (icap ocap : Nat) (ib : Nat → Byte) (count : Nat) (h : count ≤ icap)
    (h2 : decSize count ≤ ocap) (hk : firstInvalid ib count = none) :
    decodeResult icap ocap ib count =
      .ok (BitVec.ofNat 32 (decSize count)) (decodeWrites ib count (decSize count)) := by
  unfold decodeResult
  rw [if_neg (Nat.not_lt.2 h), if_neg (Nat.not_lt.2 h2), hk]

/-- Every OBUF write of a successful ENCODE is inside OBUF. -/
theorem encodeResult_writes_inside (icap ocap : Nat) (ib : Nat → Byte) (sb inlen : Nat) (res : Word)
    (ws : List Host.Cell) (h : encodeResult icap ocap ib sb inlen = .ok res ws) :
    ∀ c ∈ ws, c.1 < ocap := by
  unfold encodeResult rejectArgument at h
  split at h
  · simp at h
  · split at h
    · simp at h
    · simp only [CommandResult.ok.injEq] at h
      rw [← h.2]
      intro c hc
      simp only [encodeWrites, List.mem_map, List.mem_range] at hc
      obtain ⟨k, hk, rfl⟩ := hc
      show k < ocap
      omega

/-- Every OBUF write of a successful DECODE is inside OBUF. -/
theorem decodeResult_writes_inside (icap ocap : Nat) (ib : Nat → Byte) (count : Nat) (res : Word)
    (ws : List Host.Cell) (h : decodeResult icap ocap ib count = .ok res ws) :
    ∀ c ∈ ws, c.1 < ocap := by
  unfold decodeResult rejectArgument at h
  split at h
  · simp at h
  · split at h
    · simp at h
    · split at h
      · simp at h
      · simp only [CommandResult.ok.injEq] at h
        rw [← h.2]
        intro c hc
        simp only [decodeWrites, List.mem_map, List.mem_range] at hc
        obtain ⟨k, hk, rfl⟩ := hc
        show k < ocap
        omega

/-! ### The encoder datapath -/

@[simp] theorem encodeValues_zero (m : Nat → Byte) (q : Cursor) : encodeValues m 0 q = [] := rfl

@[simp] theorem encodeValues_succ (m : Nat → Byte) (n : Nat) (q : Cursor) :
    encodeValues m (n + 1) q =
      encodePhase q.phase (m q.c) (m (q.c + 1)) :: encodeValues m n q.next := rfl

theorem encodeDatapath_eq (m : Nat → Byte) (n : Nat) (q : Cursor) :
    encodeDatapath m n q = (encodeValues m n q).map (fun v => fwd (v.setWidth 5)) := rfl

end Sys2Proof.Machine
end

