-- ==== Sys2Proof/Laws/PerInstr.lean ====
section
/-!
SUPPORT. Facts about every command as syntax, one lemma per constructor.
-/

namespace Sys2Proof.Laws.CommandWord

/-- R90, R91: the command word of a command has zero reserved bits and its OP code in bits 3:0, so it
is one of the first sixteen words. -/
def Statement (i : Instr) : Prop :=
  (fieldsOf (Sys2Proof.encode i)).rsv = 0 ∧ (fieldsOf (Sys2Proof.encode i)).op = opCode i ∧
    (Sys2Proof.encode i).toNat = (opCode i).toNat ∧ i.wf = true

theorem encode : Statement .encode := by unfold Statement; decide

theorem decode : Statement .decode := by unfold Statement; decide

theorem encSize : Statement .encSize := by unfold Statement; decide

theorem decSize : Statement .decSize := by unfold Statement; decide

theorem lutFwd : Statement .lutFwd := by unfold Statement; decide

theorem lutRev : Statement .lutRev := by unfold Statement; decide

end Sys2Proof.Laws.CommandWord
end

