-- ==== Sys2Proof/Laws/Step.lean ====
section
/-!
SUPPORT. What a command and a step can do, said once: a meaning is the completion of the latched
command with the outcome of its function, and a step is a completion or the host's turn.
-/

namespace Sys2Proof.Machine

/-- A meaning on a state with a pending command is its completion. -/
theorem runLatched_some (s : State) (p : Pending) (f : Pending → CommandResult)
    (h : s.pending = some p) : s.runLatched f = .next (s.completeWith (f p)) := by
  simp only [State.runLatched, h]

/-- A meaning that answers a next state ran on a pending command. -/
theorem runLatched_next (s t : State) (f : Pending → CommandResult)
    (h : s.runLatched f = .next t) : ∃ p, s.pending = some p ∧ t = s.completeWith (f p) := by
  unfold State.runLatched at h
  split at h
  · rename_i p hp
    exact ⟨p, hp, by injection h with h; exact h.symm⟩
  · cases h

/-- A meaning without a pending command faults (R95). -/
theorem runLatched_none (s : State) (f : Pending → CommandResult) (h : s.pending = none) :
    s.runLatched f = .fault .noPendingCommand := by
  simp only [State.runLatched, h]

/-- R96: the outcome of a command, as a function of the latched operands, the capacities and IBUF. -/
def resultOf (i : Instr) (s : State) (p : Pending) : CommandResult :=
  match i with
  | .encode => encodeResult s.ibufBytes s.obufBytes s.ibufByte p.operand0 p.operand1
  | .decode => decodeResult s.ibufBytes s.obufBytes s.ibufByte p.operand0
  | .encSize => encSizeResult p.operand0
  | .decSize => decSizeResult p.operand0
  | .lutFwd => lutFwdResult p.operand0
  | .lutRev => lutRevResult p.operand0

/-- Every command is the completion of the latched command with its outcome. -/
theorem exec_eq (i : Instr) (s : State) : exec i s = s.runLatched (resultOf i s) := by
  cases i <;> rfl

/-- Every command completes on a state with a pending command. -/
theorem exec_some (i : Instr) (s : State) (p : Pending) (h : s.pending = some p) :
    exec i s = .next (s.completeWith (resultOf i s p)) := by
  rw [exec_eq, runLatched_some s p _ h]

/-- What a command did when it answers a next state. -/
theorem exec_next (i : Instr) (s t : State) (h : exec i s = .next t) :
    ∃ p, s.pending = some p ∧ t = s.completeWith (resultOf i s p) :=
  runLatched_next s t _ (exec_eq i s ▸ h)

@[simp] theorem completeWith_ok (s : State) (res : Word) (ws : List Host.Cell) :
    s.completeWith (.ok res ws) = s.commitResult res ws := rfl

@[simp] theorem completeWith_err (s : State) (code : ErrCode) (info : Word) :
    s.completeWith (.err code info) = s.takeError code info := rfl

/-- R205: everything an error completion does. -/
theorem takeError_rejects (s : State) (code : ErrCode) (info : Word) :
    Rejects s (s.takeError code info) code info where
  completes := ⟨rfl, rfl, rfl, rfl, rfl, rfl, rfl, rfl, rfl, fun _ => rfl, rfl, rfl, rfl, rfl, rfl, rfl⟩
  err := rfl
  errinfo := rfl
  result := rfl
  obuf := rfl
  obufByte := fun _ => rfl

/-- R95: what a successful completion leaves alone. -/
theorem commitResult_completes (s : State) (res : Word) (ws : List Host.Cell) :
    Completes s (s.commitResult res ws) :=
  ⟨rfl, rfl, rfl, rfl, rfl, rfl, rfl, rfl, rfl, fun _ => rfl, rfl, rfl, rfl, rfl, rfl, rfl⟩

/-- R141, R172: the OBUF bytes after a successful completion that writes the indices below `n`. -/
theorem commitResult_writesExactly (s : State) (res : Word) (n : Nat) (f : Nat → Byte) :
    WritesExactly s (s.commitResult res ((List.range n).map (fun k => (k, f k)))) n f where
  written := fun k hk => by
    simp only [State.obufByte, commitResult_obuf, commitResult_epoch, memory_get?_setAll_range]
    simp [hk]
  kept := fun k hk => by
    simp only [State.obufByte, commitResult_obuf, commitResult_epoch, memory_get?_setAll_range]
    simp [Nat.not_lt.2 hk]

/-- The OBUF writes of a command are inside OBUF. -/
theorem resultOf_writes_inside (i : Instr) (s : State) (p : Pending) (res : Word)
    (ws : List Host.Cell) (h : resultOf i s p = .ok res ws) : ∀ c ∈ ws, c.1 < s.obufBytes := by
  cases i with
  | encode => exact encodeResult_writes_inside _ _ _ _ _ _ _ h
  | decode => exact decodeResult_writes_inside _ _ _ _ _ _ h
  | encSize =>
    simp only [resultOf, encSizeResult, CommandResult.ok.injEq] at h
    simp [← h.2]
  | decSize =>
    simp only [resultOf, decSizeResult, CommandResult.ok.injEq] at h
    simp [← h.2]
  | lutFwd =>
    simp only [resultOf, lutFwdResult, rejectArgument] at h
    split at h
    · simp at h
    · simp only [CommandResult.ok.injEq] at h
      simp [← h.2]
  | lutRev =>
    simp only [resultOf, lutRevResult, rejectArgument] at h
    split at h
    · simp at h
    · simp only [CommandResult.ok.injEq] at h
      simp [← h.2]

/-- R200: an error outcome never carries the code NONE. -/
theorem resultOf_err_ne (i : Instr) (s : State) (p : Pending) (code : ErrCode) (info : Word)
    (h : resultOf i s p = .err code info) : code ≠ .noError := by
  rintro rfl
  cases i with
  | encode =>
    simp only [resultOf, encodeResult, rejectArgument] at h
    split at h
    · cases h
    · split at h <;> cases h
  | decode =>
    simp only [resultOf, decodeResult, rejectArgument] at h
    split at h
    · cases h
    · split at h
      · cases h
      · split at h <;> cases h
  | encSize => cases h
  | decSize => cases h
  | lutFwd =>
    simp only [resultOf, lutFwdResult, rejectArgument] at h
    split at h <;> cases h
  | lutRev =>
    simp only [resultOf, lutRevResult, rejectArgument] at h
    split at h <;> cases h

/-- When a completion is due. -/
theorem due_eq_some (s : State) (p : Pending) : s.due = some p ↔ s.Completing p := by
  unfold State.due State.resetNow
  constructor
  · intro h
    split at h
    · cases h
    · rename_i hr
      split at h
      · rename_i q hq
        split at h
        · rename_i hw
          simp only [Option.some.injEq] at h
          subst h
          exact ⟨hq, hw, by simpa using hr⟩
        · cases h
      · cases h
  · rintro ⟨h1, h2, h3⟩
    simp [h1, h2, h3]

/-- A step at a completion. -/
theorem step_completing (s : State) (p : Pending) (h : s.Completing p) : step s = runCommand p s := by
  unfold step
  rw [(due_eq_some s p).2 h]

/-- The two kinds of step: a completion, or the host's turn. -/
theorem step_cases (s : State) :
    (∃ p, s.Completing p ∧ step s = runCommand p s) ∨
    ((∀ p, ¬ s.Completing p) ∧ step s = .next s.hostTurn) := by
  unfold step
  cases h : s.due with
  | some p => exact .inl ⟨p, (due_eq_some s p).1 h, rfl⟩
  | none =>
    refine .inr ⟨fun p hp => ?_, rfl⟩
    rw [(due_eq_some s p).2 hp] at h
    cases h

/-- A completion step: a command, or an illegal word (R92). -/
theorem runCommand_cases (p : Pending) (s : State) :
    (∃ i, decode p.cmdword = .command i ∧ runCommand p s = exec i s) ∨
    ((∀ i, decode p.cmdword ≠ .command i) ∧ runCommand p s = .next (s.completeIllegal p.cmdword)) := by
  unfold runCommand
  cases h : decode p.cmdword with
  | command i => exact .inl ⟨i, rfl, rfl⟩
  | illegal e => exact .inr ⟨fun i hi => (by cases hi), rfl⟩

/-- A run of one more step, when the first step answers a next state. -/
theorem run_succ (k : Nat) (s t : State) (h : step s = .next t) :
    Sys2Proof.core.run (k + 1) s = Sys2Proof.core.run k t := by
  have h' : Sys2Proof.core.step s = .next t := h
  simp only [Host.Core.run, h']

end Sys2Proof.Machine
end

