-- ==== Sys2Proof/Machine/Assembler.lean ====
section
/-!
DEFINITION. The text of a host script (rules R99 and R100): its tokens, offsets, values and mnemonics,
and the inputs that a line stands for. A line that is not in the syntax of R99 and R100 stands for
none.
-/

namespace Sys2Proof.Machine

/-- What a line of a script is made of. -/
inductive Token where
  /-- A mnemonic, an offset or a value. -/
  | word (cs : List Char)
  | comma
  /-- The text between the quotes of `load`. -/
  | text (cs : List Char)
  deriving DecidableEq, Repr

/-- The characters read so far (the last first) become a word in front of the tokens that follow. -/
def flushWord (cur : List Char) (ts : List Token) : List Token :=
  if cur = [] then ts else .word cur.reverse :: ts

/-- R99: the tokens of a line. A comment starts with `;`. `quoted` says that a text is open, and `cur`
holds the characters of the word or text being read, the last first. DESIGN CHOICE
(notes/assumptions/16.md): R99 and R100 do not say whether a `;` inside the quoted text of `load` starts a
comment, nor how a text holds a quote. Here such a `;` is text, the next quote ends the text, and there is
no escape. Words are separated by spaces only. -/
def tokensOf (quoted : Bool) (cur : List Char) : List Char → Option (List Token)
  | [] => if quoted then none else some (flushWord cur [])
  | c :: rest =>
    if quoted then
      if c = '"' then (tokensOf false [] rest).map (fun ts => .text cur.reverse :: ts)
      else tokensOf true (c :: cur) rest
    else if c = ';' then some (flushWord cur [])
    else if c = '"' then
      if cur = [] then tokensOf true [] rest else none
    else if c = ' ' then (tokensOf false [] rest).map (flushWord cur)
    else if c = ',' then (tokensOf false [] rest).map (fun ts => flushWord cur (.comma :: ts))
    else tokensOf false (c :: cur) rest

/-! ### Numbers, offsets and values -/

/-- R10: a number in the given base, after `acc`. Hexadecimal digits may be capital or small. -/
def readNumber (base acc : Nat) : List Char → Option Nat
  | [] => some acc
  | c :: rest =>
    match hexValue c.toUpper with
    | some d => if d < base then readNumber base (base * acc + d) rest else none
    | none => none

/-- R10, R99: a number of a script: hexadecimal after `0x`, decimal with no prefix. A `0X` is no
prefix (notes/assumptions/16.md). -/
def numberOf : List Char → Option Nat
  | [] => none
  | '0' :: 'x' :: c :: cs => readNumber 16 0 (c :: cs)
  | c :: cs => readNumber 10 0 (c :: cs)

/-- R99: the names of offsets. -/
def offsetNames : List (List Char × Nat) :=
  [("CMD".toList, 0x000), ("STATUS".toList, 0x004), ("ARG0".toList, 0x008), ("ARG1".toList, 0x00C)] ++
  [("RESULT".toList, 0x010), ("ERRINFO".toList, 0x014), ("INTEN".toList, 0x018)] ++
  [("IBUF_SIZE".toList, 0x01C), ("OBUF_SIZE".toList, 0x020), ("ID".toList, 0x024)] ++
  [("IBUF".toList, 0x10000), ("OBUF".toList, 0x20000)]

/-- R91, R99: the mnemonics that may stand for their command words. -/
def mnemonics : List (List Char × Instr) :=
  [("ENCODE".toList, .encode), ("DECODE".toList, .decode), ("ENC_SIZE".toList, .encSize)] ++
  [("DEC_SIZE".toList, .decSize), ("LUT_FWD".toList, .lutFwd), ("LUT_REV".toList, .lutRev)]

/-- What a name of a list stands for. -/
def lookupName {α : Type} (names : List (List Char × α)) (cs : List Char) : Option α :=
  (names.find? (fun e => e.1 == cs)).map Prod.snd

/-- R99: an offset without its `+n`: a name, or a hexadecimal number. -/
def baseOffset (cs : List Char) : Option Nat :=
  match lookupName offsetNames cs with
  | some n => some n
  | none =>
    match cs with
    | '0' :: 'x' :: _ => numberOf cs
    | _ => none

/-- R99: the `+n` of an offset, given the characters from the `+` on. -/
def plusOf : List Char → Option Nat
  | [] => some 0
  | _ :: n => numberOf n

/-- R99: `OFF`, an offset of the host port's 18-bit space (R60). -/
def offsetOf (cs : List Char) : Option Offset :=
  match baseOffset (cs.takeWhile (fun c => c != '+')), plusOf (cs.dropWhile (fun c => c != '+')) with
  | some b, some n => if b + n < 2 ^ 18 then some (BitVec.ofNat 18 (b + n)) else none
  | _, _ => none

/-- R99: `VAL`: a mnemonic, or a number that fits in 32 bits. -/
def valueOf (cs : List Char) : Option Word :=
  match lookupName mnemonics cs with
  | some i => some (encode i)
  | none =>
    match numberOf cs with
    | some n => if n < 2 ^ 32 then some (BitVec.ofNat 32 n) else none
    | none => none

/-! ### Lines -/

/-- R99, R100: the lines with no operand. -/
def assemble0 (op : List Char) : Option (List Input) :=
  if op = "wait".toList then some scriptWait
  else if op = "ack".toList then some scriptAck
  else none

/-- R99, R100: the lines with one operand. -/
def assemble1 (op a : List Char) : Option (List Input) :=
  if op = "rd32".toList then (offsetOf a).map (fun off => [rd32 off])
  else if op = "rd8".toList then (offsetOf a).map (fun off => [rd8 off])
  else if op = "cmd".toList then (valueOf a).map (fun v => [wr32 Csr.cmd.offset v])
  else if op = "arg0".toList then (valueOf a).map scriptArg0
  else if op = "arg1".toList then (valueOf a).map scriptArg1
  else none

/-- R99: `wr32 OFF, VAL`. -/
def assembleWr32 (off val : List Char) : Option (List Input) :=
  match offsetOf off, valueOf val with
  | some o, some v => some [wr32 o v]
  | _, _ => none

/-- R99: `wr8 OFF, VAL`, of a value that fits in a byte. -/
def assembleWr8 (off val : List Char) : Option (List Input) :=
  match offsetOf off, valueOf val with
  | some o, some v => if v.toNat < 256 then some [wr8 o (v.setWidth 8)] else none
  | _, _ => none

/-- R100: `run MNEM, A0`. -/
def assembleRun1 (mnem a0 : List Char) : Option (List Input) :=
  match lookupName mnemonics mnem, valueOf a0 with
  | some i, some v => some (scriptRun1 i v)
  | _, _ => none

/-- R100: `run MNEM, A0, A1`. -/
def assembleRun2 (mnem a0 a1 : List Char) : Option (List Input) :=
  match lookupName mnemonics mnem, valueOf a0, valueOf a1 with
  | some i, some v, some w => some (scriptRun2 i v w)
  | _, _, _ => none

/-- R99, R100: the lines with two operands. -/
def assemble2 (op a b : List Char) : Option (List Input) :=
  if op = "wr32".toList then assembleWr32 a b
  else if op = "wr8".toList then assembleWr8 a b
  else if op = "run".toList then assembleRun1 a b
  else none

/-- R100: `load OFF, "text"`, of a text in ASCII that stays inside the host port's space. -/
def assembleLoad (off text : List Char) : Option (List Input) :=
  match offsetOf off with
  | some o =>
    if o.toNat + text.length ≤ 2 ^ 18 ∧ text.all (fun c => decide (c.toNat < 128)) = true then
      some (scriptLoad o text)
    else none
  | none => none

/-- R99, R100: the inputs that the tokens of a line stand for. A line with no token is empty or a
comment. -/
def assembleTokens : List Token → Option (List Input)
  | [] => some []
  | [.word op] => assemble0 op
  | [.word op, .word a] => assemble1 op a
  | [.word op, .word a, .comma, .word b] => assemble2 op a b
  | [.word op, .word a, .comma, .text t] => if op = "load".toList then assembleLoad a t else none
  | [.word op, .word a, .comma, .word b, .comma, .word c] =>
    if op = "run".toList then assembleRun2 a b c else none
  | _ => none

/-- R99, R100: the inputs that a line stands for. -/
def assembleLine (line : List Char) : Option (List Input) :=
  match tokensOf false [] line with
  | some ts => assembleTokens ts
  | none => none

/-- R99: the inputs that the lines of a script stand for, in order. -/
def assemble : List (List Char) → Option (List Input)
  | [] => some []
  | line :: rest =>
    match assembleLine line, assemble rest with
    | some a, some b => some (a ++ b)
    | _, _ => none

end Sys2Proof.Machine
end

