-- ==== Sys2Proof/Tests/Slice0.lean ====
section
/-!
SUPPORT. Small tests, with expected values from `spec/95_test_vectors.md` and the tables of the spec
(buffers of 64 bytes, as there), and for every statement with hypotheses a concrete case that meets
them.
-/

namespace Sys2Proof.Tests

open Sys2Proof.Machine

/-! ### Helpers -/

/-- The next state of an outcome, if there is one. -/
def after (o : Host.Outcome State Fault Refusal) : Option State :=
  match o with
  | .next s => some s
  | .fault _ => none
  | .refused _ => none

/-- An idle block with 64-byte buffers (the parameters of `95_test_vectors.md`). -/
def idle64 : State := { State.reset with ibufBytes := 64, obufBytes := 64 }

/-- IBUF holding these bytes from index 0. -/
def withInput (s : State) (bytes : List Byte) : State :=
  { s with ibuf := (List.range bytes.length).zip bytes }

/-- A block about to complete the command word `w` on these operands. -/
def ready (s : State) (w a0 a1 : Word) : State := State.latchCommand { s with arg0 := a0, arg1 := a1 } w

/-- The completion: ERR, ERRINFO, RESULT and the first bytes of OBUF. -/
def outcome (s : State) : Option (ErrCode × Word × Word × List (Option Byte)) :=
  (after (step s)).map (fun t => (t.err, t.errinfo, t.result, (List.range 6).map t.obuf.get?))

/-- "foo" (V1). -/
def foo : List Byte := [0x66, 0x6F, 0x6F]

/-- "c3zs6" (V1). -/
def c3zs6 : List Byte := [0x63, 0x33, 0x7A, 0x73, 0x36]

/-! ### Command words (R90 to R92) -/

theorem test_wf_refuses_reserved_bits : CommandFields.rsvZero { op := 1, rsv := 1 } = false := by decide
theorem test_wf_refuses_op0 : CommandFields.opDefined { op := 0x0, rsv := 0 } = false := by decide
theorem test_wf_refuses_op7 : CommandFields.opDefined { op := 0x7, rsv := 0 } = false := by decide
theorem test_wf_refuses_whole_words :
    CommandFields.wf { op := 5, rsv := 1 } = false ∧ CommandFields.wf { op := 0xF, rsv := 0 } = false := by
  decide

/-- Each word written out bit by bit from R91's third column, OP in bits 3:0. -/
theorem test_decode_encode_word :
    decode 0b00000000000000000000000000000001#32 = .command .encode := by decide
theorem test_decode_decode_word :
    decode 0b00000000000000000000000000000010#32 = .command .decode := by decide
theorem test_decode_enc_size_word :
    decode 0b00000000000000000000000000000011#32 = .command .encSize := by decide
theorem test_decode_dec_size_word :
    decode 0b00000000000000000000000000000100#32 = .command .decSize := by decide
theorem test_decode_lut_fwd_word :
    decode 0b00000000000000000000000000000101#32 = .command .lutFwd := by decide
theorem test_decode_lut_rev_word :
    decode 0b00000000000000000000000000000110#32 = .command .lutRev := by decide
theorem test_decode_illegal_words :
    decode 0x00000000 = .illegal .reservedOp ∧ decode 0x0000000F = .illegal .reservedOp ∧
      decode 0x00000015 = .illegal .reservedBits ∧ decode 0x80000001 = .illegal .reservedBits := by
  decide
theorem test_decode_table_words :
    (List.range 8).map (decodeTableWord 32) =
      [none, some .encode, some .decode, some .encSize, some .decSize, some .lutFwd, some .lutRev,
        none] ∧ decodeTableWord 64 0x100000001 = none := by
  decide

/-- R94, R95: from reset, a placed command completes at the next step, without an error. -/
theorem test_placed_commands_complete :
    ∀ w ∈ [1, 2, 3, 4, 5, 6],
      (after (step (State.reset.withFetchWord 32 w))).map (fun t => (t.busy, t.done)) =
        some (false, true) := by
  decide

/-! ### The commands (95_test_vectors.md, parts 1 and 2) -/

theorem test_encode_foo :
    outcome (ready (withInput idle64 foo) 1 24 3) =
      some (.noError, 0, 5, [some 0x63, some 0x33, some 0x7A, some 0x73, some 0x36, none]) := by
  decide
/-- Section 2.2: sb = 7, one byte 01: the trailing bit is masked, "yy". -/
theorem test_encode_masks_trailing_bits :
    outcome (ready (withInput idle64 [0x01]) 1 7 1) =
      some (.noError, 0, 2, [some 0x79, some 0x79, none, none, none, none]) := by
  decide
theorem test_encode_range_errors :
    (outcome (ready idle64 1 321 41)).map (fun r => (r.1, r.2.1)) = some (.invalidArgument, 2) ∧
      (outcome (ready idle64 1 0xFFFFFFFF 65)).map (fun r => (r.1, r.2.1)) =
        some (.invalidArgument, 1) := by
  decide

theorem test_decode_c3zs6 :
    outcome (ready (withInput idle64 c3zs6) 2 5 0) =
      some (.noError, 0, 4, [some 0x66, some 0x6F, some 0x6F, some 0x00, none, none]) := by
  decide
/-- Section 2.3: "c3Zs6" is invalid at index 2, and no OBUF byte is written. -/
theorem test_decode_invalid_symbol :
    outcome (ready (withInput idle64 [0x63, 0x33, 0x5A, 0x73, 0x36]) 2 5 0) =
      some (.invalidSymbol, 2, 0, [none, none, none, none, none, none]) := by
  decide

/-- Section 2.4: 25 bits, and the exact value at 2^32 - 1. -/
theorem test_enc_size :
    (outcome (ready idle64 3 25 0)).map (fun r => r.2.2.1) = some 5 ∧
      (outcome (ready idle64 3 0xFFFFFFFF 0)).map (fun r => r.2.2.1) = some 0x33333333 := by
  decide
/-- V3 with C1: DEC_SIZE of 1 is 1; section 2.4: the exact value at 2^32 - 1. -/
theorem test_dec_size :
    (outcome (ready idle64 4 1 0)).map (fun r => r.2.2.1) = some 1 ∧
      (outcome (ready idle64 4 0xFFFFFFFF 0)).map (fun r => r.2.2.1) = some 0xA0000000 := by
  decide
theorem test_lut_fwd :
    (outcome (ready idle64 5 12 0)).map (fun r => (r.1, r.2.2.1)) = some (.noError, 0x63) ∧
      (outcome (ready idle64 5 32 0)).map (fun r => (r.1, r.2.1)) = some (.invalidArgument, 3) := by
  decide
theorem test_lut_rev :
    (outcome (ready idle64 6 0x59 0)).map (fun r => (r.1, r.2.2.1)) = some (.noError, 0x20) ∧
      (outcome (ready idle64 6 0x100 0)).map (fun r => (r.1, r.2.1)) = some (.invalidArgument, 3) := by
  decide

/-- R111: rows 3, 6 and 7 of the table of REV, the only ones with valid entries. -/
theorem test_rev_table_rows :
    (List.range 16).map (fun lo => (rev (BitVec.ofNat 8 (0x30 + lo))).toNat) =
      [0x20, 0x12, 0x20, 0x19, 0x1A, 0x1B, 0x1E, 0x1D, 0x07, 0x1F, 0x20, 0x20, 0x20, 0x20, 0x20, 0x20] ∧
    (List.range 16).map (fun lo => (rev (BitVec.ofNat 8 (0x60 + lo))).toNat) =
      [0x20, 0x18, 0x01, 0x0C, 0x03, 0x08, 0x05, 0x06, 0x1C, 0x15, 0x09, 0x0A, 0x20, 0x0B, 0x02, 0x10] ∧
    (List.range 16).map (fun lo => (rev (BitVec.ofNat 8 (0x70 + lo))).toNat) =
      [0x0D, 0x0E, 0x04, 0x16, 0x11, 0x13, 0x20, 0x14, 0x0F, 0x00, 0x17, 0x20, 0x20, 0x20, 0x20, 0x20] := by
  decide

/-- Section 2.2: the phase trace of 12 34 56 78 9A, every phase of the encoder datapath. -/
theorem test_encoder_phases :
    (encodeValues (maskedByte (fun j => [0x12, 0x34, 0x56, 0x78, 0x9A].getD j 0) 40 5) 8
      Cursor.start).map BitVec.toNat = [2, 8, 26, 5, 12, 30, 4, 26] := by
  decide
/-- Section 2.3: the scratch of the decoder datapath for "c3zs6" (values 12, 25, 23, 22, 30). -/
theorem test_decoder_phases :
    decodeDatapath (fun k => [12, 25, 23, 22, 30].getD k 0) 5 Cursor.start (zeroScratch 4) =
      [0x66, 0x6F, 0x6F, 0x00] := by
  decide

/-! ### The host port (95_test_vectors.md, section 2.5) -/

/-- A block that is busy with the command word `w`. -/
def busy64 (w a0 a1 : Word) : State := ready idle64 w a0 a1

theorem test_illegal_word_status :
    (after (step (busy64 0x15 0 0))).map (fun t => (t.statusWord, t.errinfo)) = some (0x32, 0x15) := by
  decide
/-- Section 2.5: STATUS after INVALID_ARGUMENT and after INVALID_SYMBOL. -/
theorem test_error_status :
    (after (step (busy64 5 32 0))).map State.statusWord = some 0x12 ∧
      (after (step (ready (withInput idle64 [0x59]) 2 1 0))).map State.statusWord = some 0x22 := by
  decide
theorem test_busy_arg0_write_is_dropped :
    ((busy64 3 24 0).memWrite .w32 0x008 9).arg0 = 24 ∧
      ((busy64 3 24 0).memWrite .w32 0x008 9).statusWord = 0x101 := by
  decide
theorem test_word_write_is_little_endian :
    (idle64.memWrite .w32 0x10000 0x006F6F66).ibuf = [(0, 0x66), (1, 0x6F), (2, 0x6F), (3, 0x00)] := by
  decide
theorem test_bus_errors :
    (idle64.memRead .w8 0x00000).error = true ∧ (idle64.memRead .w32 0x10002).error = true ∧
      (idle64.writeResponse .w8 0x20000).error = true ∧ (idle64.memRead .w8 0x10040).error = true ∧
      (idle64.memRead .w32 0x00028) = { data := 0, error := false } := by
  decide
theorem test_constant_registers :
    (idle64.memRead .w32 0x024).data = 0x5A423332 ∧ (idle64.memRead .w32 0x01C).data = 0x40 ∧
      (idle64.memRead .w32 0x020).data = 0x40 := by
  decide
theorem test_ack_clears_status :
    ((after (step (busy64 0x15 0 0))).map
      (fun t => (t.memWrite .w32 0x004 0x102).statusWord)) = some 0 := by
  decide
/-- R134, V1: the outputs of the encoder datapath for "foo" and 24 bits are "c3zs6". -/
theorem test_encoder_outputs :
    encodeDatapath (maskedByte (fun j => foo.getD j 0) 24 3) 5 Cursor.start = c3zs6 := by
  decide
/-- R101 and log entry 16: a record of an offset that the host port does not have is refused. -/
theorem test_record_of_no_offset :
    readRecord "W32 40000 00000001".toList = none ∧
      readRecord "W32 3FFFF 00000001".toList = some (.write, .w32, 0x3FFFF, 1) := by
  decide
/-- R101: the two examples of the rule. -/
theorem test_records :
    recordOf .write .w32 0x00000 0x00000001 = some "W32 00000 00000001".toList ∧
      recordOf .read .w32 0x00004 0x00000002 = some "R32 00004 00000002".toList := by
  decide

/-- R99, R100 and lines of P1, P4 and a `load`: the accesses their records give. -/
theorem test_script_lines :
    assembleLine "wr32 IBUF+0, 0x006F6F66     ; foo".toList = some [wr32 0x10000 0x006F6F66] ∧
      assembleLine "rd8  OBUF+4                 ; R8".toList = some [rd8 0x20004] ∧
      assembleLine "arg0 24".toList = some [wr32 0x008 0x18] ∧
      assembleLine "cmd  0x00000015".toList = some [wr32 0x000 0x15] ∧
      assembleLine "load IBUF+3, \"c3\"".toList = some [wr8 0x10003 0x63, wr8 0x10004 0x33] := by
  decide
/-- Log entry 16: a `;` inside the text of `load` is text; a text that is not closed is refused. -/
theorem test_script_text :
    assembleLine "load IBUF, \"b;\" ; two bytes".toList = some [wr8 0x10000 0x62, wr8 0x10001 0x3B] ∧
      assembleLine "load IBUF, \"b".toList = none := by
  decide
/-- R100: `run` and its expansion; a line outside the syntax stands for nothing. -/
theorem test_script_run :
    assembleLine "run ENCODE, 24, 3".toList =
        assemble ["arg0 24".toList, "arg1 3".toList, "cmd ENCODE".toList, "wait".toList] ∧
      assembleLine "run LUT_REV, 0x59".toList =
        some [wr32 0x008 0x59, wr32 0x000 0x6, .pollBusy] ∧
      assembleLine "wr8 IBUF, 0x100".toList = none ∧ assembleLine "rd32 NOWHERE".toList = none := by
  decide

/-! ### Cases that meet the hypotheses of the statements -/

theorem idle64_inv : idle64.Inv :=
  ⟨by decide, by decide, by decide, by decide, rfl, (fun h => nomatch h), fun h => absurd rfl h,
    fun _ _ => rfl, (fun _ h => nomatch h), (fun h => nomatch h)⟩

/-- A state in which a command started, with three steps of its delay left. -/
def waiting64 : State :=
  { idle64 with
    cmd := 3, busy := true, arg0 := 24,
    pending := some { cmdword := 3, arg0 := 24, arg1 := 0, wait := 3 },
    inputs := [wr32 0x008 9, .pollBusy] }

theorem waiting64_inv : waiting64.Inv :=
  ⟨by decide, by decide, by decide, by decide, rfl, fun _ => ⟨rfl, rfl, rfl⟩, fun h => absurd rfl h,
    fun _ _ => rfl, fun _ h => Option.some.inj h ▸ ⟨rfl, rfl, rfl⟩, fun _ => rfl⟩

/-- The latch of `ready`. -/
def latch (w a0 a1 : Word) : Pending := { cmdword := w, arg0 := a0, arg1 := a1, wait := 0 }

theorem witness_StepRunsTheDecodedCommand :
    (busy64 3 24 0).Completing (latch 3 24 0) ∧ decode (latch 3 24 0).cmdword = .command .encSize ∧
      Instr.wf .encSize = true :=
  ⟨⟨rfl, rfl, by decide⟩, by decide, rfl⟩
theorem witness_IllegalWordsStartAndCompleteWithError :
    (busy64 0x15 0 0).Completing (latch 0x15 0 0) ∧ (∀ i, decode 0x15 ≠ .command i) ∧
      idle64.busy = false :=
  ⟨⟨rfl, rfl, by decide⟩, fun i => by cases i <;> decide, rfl⟩
theorem witness_PlacedCommandRunsNext :
    6 < 2 ^ 32 ∧ decode (BitVec.ofNat 32 6) = .command .lutRev := by decide
theorem witness_StepKeepsInv : waiting64.Inv ∧ (after (step waiting64)).isSome = true :=
  ⟨waiting64_inv, by decide⟩
/-- StepKeepsInv, its clause on a successful completion. -/
theorem witness_StepKeepsInv_completion :
    (busy64 3 24 0).Inv ∧ (busy64 3 24 0).Completing (latch 3 24 0) ∧
      ∃ t, step (busy64 3 24 0) = .next t ∧ t.err = .noError :=
  ⟨⟨by decide, by decide, by decide, by decide, rfl, fun _ => ⟨rfl, rfl, rfl⟩, fun h => absurd rfl h,
    fun _ _ => rfl, fun _ h => Option.some.inj h ▸ ⟨rfl, rfl, rfl⟩, fun _ => rfl⟩,
    ⟨rfl, rfl, by decide⟩, _, rfl, rfl⟩
theorem witness_OperandsHoldUntilCompletion :
    waiting64.Inv ∧ waiting64.NoReset ∧
      waiting64.pending = some { cmdword := 3, arg0 := 24, arg1 := 0, wait := 3 } ∧ 3 ≤ 3 :=
  ⟨waiting64_inv, by unfold State.NoReset; decide, rfl, by decide⟩
theorem witness_PendingCommandCompletesAfterItsLatency :
    waiting64.Inv ∧ waiting64.NoReset ∧
      waiting64.pending = some { cmdword := 3, arg0 := 24, arg1 := 0, wait := 3 } :=
  ⟨waiting64_inv, by unfold State.NoReset; decide, rfl⟩
theorem witness_OutcomeIsFixedAtTheStart :
    idle64.Inv ∧ idle64.NoReset ∧ idle64.busy = false ∧ decode 1 = .command .encode :=
  ⟨idle64_inv, by unfold State.NoReset; decide, rfl, by decide⟩
theorem witness_ResultChangesOnlyAtACompletion :
    ∃ t, step (busy64 3 24 0) = .next t ∧ t.result ≠ (busy64 3 24 0).result :=
  ⟨_, rfl, by decide⟩
theorem witness_ObufWrittenOnlyByEncodeAndDecode :
    ∃ t, step (ready (withInput { idle64 with obuf := [(0, 0)] } foo) 1 24 3) = .next t ∧
      ∃ i, t.obufByte i ≠ (ready (withInput { idle64 with obuf := [(0, 0)] } foo) 1 24 3).obufByte i :=
  ⟨_, rfl, 0, by decide⟩
theorem witness_IbufWrittenOnlyByTheIdleHost :
    ∃ t, step { withInput idle64 foo with inputs := [wr8 0x10000 0x41] } = .next t ∧
      ∃ i, t.ibufByte i ≠ ({ withInput idle64 foo with inputs := [wr8 0x10000 0x41] } : State).ibufByte i :=
  ⟨_, rfl, 0, by decide⟩
theorem witness_IntenChangedOnlyByHostWrites :
    ∃ t, step { idle64 with inputs := [wr32 0x018 1] } = .next t ∧ t.doneIe ≠ idle64.doneIe :=
  ⟨_, rfl, by decide⟩
theorem witness_CapacitiesNeverChange : ∃ t, step idle64 = .next t := ⟨_, rfl⟩
theorem witness_ResetAbandonsTheCommand :
    ({ waiting64 with inputs := [.reset, .pollBusy] } : State).inputs = .reset :: [.pollBusy] := rfl
/-- CmdWriteStartsACommand, CursorStartsAtZero and IdleRegisterWritesStore, with both values of BUSY. -/
theorem witness_idle_block : idle64.busy = false ∧ waiting64.busy = true := ⟨rfl, rfl⟩

/-- BusyDropsWrites: each clause, at the first and the last byte and word of the windows. -/
theorem witness_BusyDropsWrites :
    waiting64.busy = true ∧
      ((0x00C : Offset) = 0x000 ∨ (0x00C : Offset) = 0x008 ∨ (0x00C : Offset) = 0x00C) ∧
      (0 < waiting64.ibufBytes ∧ 63 < waiting64.ibufBytes ∧ 63 < 65536) ∧
      (60 % 4 = 0 ∧ 60 + 3 < waiting64.ibufBytes ∧ 60 + 3 < 65536) ∧
      (0x20000 ≤ (0x20000 : Offset).toNat ∧ (0x2FFFF : Offset).toNat < 0x30000) := by
  decide
theorem witness_StatusWriteClearsTheNamedBits :
    (0x102 : Word).getLsbD 1 = true ∧ (0x100 : Word).getLsbD 1 = false ∧
      (0x102 : Word).getLsbD 8 = true ∧ (0x002 : Word).getLsbD 8 = false := by
  decide
/-- ReadOnlyAndReservedWritesAreIgnored and RegistersReadTheirValues: the first and the last reserved
offset. -/
theorem witness_ReadOnlyAndReservedWritesAreIgnored :
    (0x028 ≤ (0x028 : Offset).toNat ∧ (0x028 : Offset).toNat < 0x100 ∧ (0x028 : Offset).toNat % 4 = 0) ∧
      (0x028 ≤ (0x0FC : Offset).toNat ∧ (0x0FC : Offset).toNat < 0x100 ∧
        (0x0FC : Offset).toNat % 4 = 0) := by
  decide
/-- IbufByteWriteStoresOneByte, IbufWordWriteIsLittleEndian, IbufReadsAreLittleEndian and
ObufReadsZeroWhileBusy: the last byte and the last word of a 64-byte buffer, idle. -/
theorem witness_buffer_accesses :
    idle64.busy = false ∧ 63 < idle64.ibufBytes ∧ 63 < idle64.obufBytes ∧ 60 % 4 = 0 ∧
      60 + 3 < idle64.ibufBytes ∧ 60 + 3 < idle64.obufBytes ∧ 60 + 3 < 65536 := by
  decide
theorem witness_ReadsHaveNoSideEffect : pollAccess.dir = .read := rfl
theorem witness_CsrAccessesAreAlignedWords : (0x0FF : Offset).toNat < 0x100 := by decide
/-- BufferAccessesStayInsideTheBuffer: both ends of both windows. -/
theorem witness_BufferAccessesStayInsideTheBuffer :
    0x10000 ≤ (0x10000 : Offset).toNat ∧ (0x1FFFF : Offset).toNat < 0x20000 ∧
      0x20000 ≤ (0x20000 : Offset).toNat ∧ (0x2FFFF : Offset).toNat < 0x30000 := by
  decide
/-- UnmappedAccessesAreBusErrors: the ends of the two unmapped ranges. -/
theorem witness_UnmappedAccessesAreBusErrors :
    (0x100 ≤ (0x00100 : Offset).toNat ∧ (0x0FFFF : Offset).toNat < 0x10000) ∧
      0x30000 ≤ (0x30000 : Offset).toNat := by
  decide
/-- StatusReadsItsFields: a completed command with each of the four error codes. -/
theorem witness_StatusReadsItsFields :
    (after (step (busy64 3 24 0))).map (fun t => t.err) = some .noError ∧
      (after (step (busy64 5 32 0))).map (fun t => t.err) = some .invalidArgument ∧
      (after (step (ready (withInput idle64 [0x59]) 2 1 0))).map (fun t => t.err) = some .invalidSymbol ∧
      (after (step (busy64 0x15 0 0))).map (fun t => t.err) = some .illegalCommand := by
  decide
theorem witness_BusErrorsChangeNothing :
    ∃ r, (idle64.hostAccess
      { dir := .write, width := .w8, offset := 0x20000, data := 1 }).response = some r ∧ r.error = true :=
  ⟨_, rfl, by decide⟩
theorem witness_IrqIsDoneAndEnabled :
    ({ idle64 with done := true } : State).done = true ∧ (2 : Word).getLsbD 1 = true := by decide

/-- EncodeCompletes: a state for each of the three outcomes, at the boundary values of R143. -/
theorem witness_EncodeCompletes :
    (busy64 1 0 65).pending = some (latch 1 0 65) ∧ idle64.ibufBytes < (65 : Word).toNat ∧
      ((64 : Word).toNat ≤ idle64.ibufBytes ∧ idle64.obufBytes < ((321 : Word).toNat + 4) / 5) ∧
      ((64 : Word).toNat ≤ idle64.ibufBytes ∧ ((320 : Word).toNat + 4) / 5 ≤ idle64.obufBytes) :=
  ⟨rfl, by decide, by decide, by decide⟩
theorem witness_SymbolIsItsFiveStreamBits :
    ∃ e : Nat → Nat, ∀ i, e i =
      if i < 24 ∧ i / 8 < 3 then (idle64.ibufByte (i / 8)).toNat / 2 ^ (7 - i % 8) % 2 else 0 :=
  ⟨_, fun _ => rfl⟩
/-- DecodeCompletes: a state for each of the four outcomes. The output range is exceeded only when OBUF
is the smaller buffer (R170). -/
theorem witness_DecodeCompletes :
    (busy64 2 65 0).pending = some (latch 2 65 0) ∧ idle64.ibufBytes < (65 : Word).toNat ∧
      ((64 : Word).toNat ≤ idle64.ibufBytes ∧
        ({ idle64 with obufBytes := 39 } : State).obufBytes < (5 * (64 : Word).toNat + 7) / 8) ∧
      ((5 : Word).toNat ≤ idle64.ibufBytes ∧ (5 * (5 : Word).toNat + 7) / 8 ≤ idle64.obufBytes) ∧
      (entryInv (rev ((withInput idle64 [0x59]).ibufByte 0)) = true ∧
        ∀ j, j < 0 → entryInv (rev ((withInput idle64 [0x59]).ibufByte j)) = false) ∧
      (∀ k, k < 5 → entryInv (rev ((withInput idle64 c3zs6).ibufByte k)) = false) :=
  ⟨rfl, by decide, by decide, by decide, ⟨by decide, fun _ h => absurd h (Nat.not_lt_zero _)⟩, by decide⟩
theorem witness_OutputByteIsItsEightStreamBits :
    ∃ d : Nat → Nat, ∀ i, d i =
      if i < 5 * 5 then (entryIdx (rev (idle64.ibufByte (i / 5)))).toNat / 2 ^ (4 - i % 5) % 2 else 0 :=
  ⟨_, fun _ => rfl⟩
/-- EncSizeCompletes and DecSizeCompletes. -/
theorem witness_sizing_commands :
    (busy64 3 24 0).pending = some (latch 3 24 0) ∧ (busy64 4 9 0).pending = some (latch 4 9 0) :=
  ⟨rfl, rfl⟩
/-- LutFwdCompletes and LutRevCompletes: both sides of both limits, and a byte of each kind. -/
theorem witness_lookup_commands :
    (busy64 5 31 0).pending = some (latch 5 31 0) ∧ (busy64 6 255 0).pending = some (latch 6 255 0) ∧
      (31 < (32 : Word).toNat ∧ (31 : Word).toNat ≤ 31) ∧
      (255 < (256 : Word).toNat ∧ (255 : Word).toNat ≤ 255) ∧
      (fwd 0).toNat = (0x79 : Word).toNat ∧ ∀ i : Symbol, (fwd i).toNat ≠ (0x59 : Word).toNat :=
  ⟨rfl, rfl, by decide, by decide, by decide, by decide⟩
theorem witness_ReverseTableInvertsTheAlphabet :
    entryInv (rev 0x79) = false ∧ fwd 31 = fwd 31 := by decide
theorem witness_CommandsKeepTheirFrame : ∃ t, exec .encSize (busy64 3 24 0) = .next t := ⟨_, rfl⟩
theorem witness_ErrorsLeaveNoOutput :
    ∃ t, exec .lutFwd (busy64 5 32 0) = .next t ∧ t.err ≠ .noError := ⟨_, rfl, by decide⟩
/-- OutcomeDependsOnlyOnTheLatchAndIbuf: two states that differ in RESULT and INTEN. -/
theorem witness_OutcomeDependsOnlyOnTheLatchAndIbuf :
    ∃ t1 t2, exec .encSize (busy64 3 24 0) = .next t1 ∧
      exec .encSize { busy64 3 24 0 with result := 7, doneIe := true } = .next t2 ∧
      ∀ k, (busy64 3 24 0).ibufByte k =
        ({ busy64 3 24 0 with result := 7, doneIe := true } : State).ibufByte k :=
  ⟨_, _, rfl, rfl, fun _ => rfl⟩
/-- SizingLaws: the three counts of its last hypothesis. -/
theorem witness_SizingLaws : (40 : Nat) = 0 ∨ (40 : Nat) = 1 ∨ (40 : Nat) = 40 := by decide
theorem witness_DecoderDatapathStaysBelowItsLength :
    1 < 2 ∧ (decodePhaseSpill (cursorAt 1).phase 3).isSome = true := by decide
theorem witness_EncodeInvertsDecode :
    5 ≤ 64 ∧ decSize 5 ≤ 64 ∧
      (∀ k, k < 5 → entryInv (rev ((withInput idle64 c3zs6).ibufByte k)) = false) ∧
      ∃ ob : Nat → Byte, ∀ b, b < decSize 5 → ob b = outByte (withInput idle64 c3zs6).ibufByte 5 b :=
  ⟨by decide, by decide, by decide, _, fun _ _ => rfl⟩
theorem witness_DecodeInvertsEncode :
    20 % 5 = 0 ∧ 20 ≤ 8 * 3 ∧ 3 ≤ 64 ∧ 20 / 5 ≤ 64 ∧ 20 % 8 ≠ 0 ∧
      ∃ jb : Nat → Byte, ∀ k, k < 20 / 5 → jb k = fwd (symbolAt (withInput idle64 foo).ibufByte 20 3 k) :=
  ⟨by decide, by decide, by decide, by decide, by decide, _, fun _ _ => rfl⟩
theorem witness_WaitLoopPollsUntilIdle :
    ({ waiting64 with inputs := [.pollBusy] } : State).inputs = .pollBusy :: [] ∧
      ∀ p, ¬ ({ waiting64 with inputs := [.pollBusy] } : State).Completing p :=
  ⟨rfl, fun p h => by
    have h1 := h.latched
    cases h1
    exact absurd h.elapsed (by decide)⟩
/-- EachStepTakesTheNextInput: a read, a write, an idle host and no host, while a command waits. -/
theorem witness_EachStepTakesTheNextInput :
    (∀ p, ¬ waiting64.Completing p) ∧
      waiting64.inputs = .access { dir := .write, width := .w32, offset := 0x008, data := 9 } :: [.pollBusy] ∧
      ({ waiting64 with inputs := [.access pollAccess] } : State).inputs = .access pollAccess :: [] ∧
      pollAccess.dir = .read ∧ ({ waiting64 with inputs := [.idle] } : State).inputs = .idle :: [] ∧
      ({ waiting64 with inputs := [] } : State).inputs = [] :=
  ⟨fun p h => by
    have h1 := h.latched
    cases h1
    exact absurd h.elapsed (by decide), rfl, rfl, rfl, rfl, rfl⟩
theorem witness_RecordsReadBack : Width.w8 = .w8 ∨ Width.w8 = .w32 := by decide

end Sys2Proof.Tests
end

section
/-!
The two statements about a step as a whole: every step keeps the legal states (`Obligations.StepKeepsInv`),
and a step without a completion takes the input at the head (`Obligations.EachStepTakesTheNextInput`).
Each operation that a step is made of keeps `State.Inv` by a lemma of its own; the lemmas on host writes,
host accesses, host turns and completions are put together from those.
-/

namespace Sys2Proof.Machine

/-! ### Operations on fields that no legal state restricts

Each clause of `State.Inv` says the same of the new state as of the old one, so `{ h with … }` keeps it.
The later lemmas write out only the clauses that their operation touches. -/

theorem inv_dropWrite {s : State} (h : s.Inv) : s.dropWrite.Inv := { h with }

theorem inv_withInputs {s : State} (h : s.Inv) (l : List Input) : (s.withInputs l).Inv := { h with }

theorem inv_withResponse {s : State} (h : s.Inv) (r : Response) : (s.withResponse r).Inv := { h with }

theorem inv_writeInten {s : State} (h : s.Inv) (w : Word) : (s.writeInten w).Inv := { h with }

/-! ### The other host writes -/

/-- While BUSY is 0 the latch is empty, so an operand register that changes is no longer latched. -/
theorem pending_eq_none_of_inv {s : State} (h : s.Inv) (hb : s.busy = false) : s.pending = none := by
  simpa [hb] using h.latchBusy

/-- A pending command is what BUSY shows. -/
theorem busy_of_inv {s : State} {p : Pending} (h : s.Inv) (hp : s.pending = some p) :
    s.busy = true := by
  simpa [hp] using h.latchBusy

/-- R32: ERRINFO is 0 from a command's start to its completion. -/
theorem errinfo_of_busy {s : State} (h : s.Inv) (hb : s.busy = true) : s.errinfo = 0 := by
  obtain ⟨-, -, hinfo⟩ := h.busyFlags hb
  exact hinfo

theorem inv_withArg0 {s : State} (h : s.Inv) (hb : s.busy = false) (w : Word) : (s.withArg0 w).Inv :=
  { h with latched := by simp [pending_eq_none_of_inv h hb] }

theorem inv_withArg1 {s : State} (h : s.Inv) (hb : s.busy = false) (w : Word) : (s.withArg1 w).Inv :=
  { h with latched := by simp [pending_eq_none_of_inv h hb] }

theorem inv_storeIbuf {s : State} (h : s.Inv) (ws : List Host.Cell)
    (hw : ∀ c ∈ ws, c.1 < s.ibufBytes) : (s.storeIbuf ws).Inv :=
  { h with ibufForm := memory_wf_setAll _ ws _ h.ibufForm hw }

/-- R94: a command start sets every field that a legal state restricts, but for the buffers. -/
theorem inv_startCommand {s : State} (h : s.Inv) (w : Word) : (s.startCommand w).Inv :=
  { h with
    latchBusy := rfl
    busyFlags := fun _ => ⟨rfl, rfl, rfl⟩
    errorDone := fun he => absurd rfl he
    successInfo := fun _ _ => rfl
    latched := fun p hp => by cases hp; exact ⟨rfl, rfl, rfl⟩
    cursorStart := fun _ => rfl }

/-- R25: DONE and ERR are cleared together, so no error code is left without DONE. -/
theorem inv_acknowledge {s : State} (h : s.Inv) : s.acknowledge.Inv :=
  { h with
    busyFlags := fun hb => ⟨rfl, rfl, errinfo_of_busy (s := s) h hb⟩
    errorDone := fun he => absurd rfl he
    successInfo := fun hd => by cases hd }

theorem inv_clearBusywr {s : State} (h : s.Inv) : ({ s with busywr := false } : State).Inv := { h with }

theorem inv_writeStatus {s : State} (h : s.Inv) (w : Word) : (s.writeStatus w).Inv := by
  unfold State.writeStatus
  split <;> split
  · exact inv_clearBusywr (inv_acknowledge h)
  · exact inv_acknowledge h
  · exact inv_clearBusywr h
  · exact h

theorem inv_memWrite {s : State} (h : s.Inv) (width : Width) (off : Offset) (v : Word) :
    (s.memWrite width off v).Inv := by
  rcases memWrite_cases s width off v with
    e | ⟨-, e⟩ | ⟨-, e⟩ | e | ⟨hb, e⟩ | ⟨hb, e⟩ | ⟨-, e⟩ | ⟨-, ws, hw, e⟩ <;> rw [e]
  · exact h
  · exact inv_dropWrite h
  · exact inv_startCommand h v
  · exact inv_writeStatus h v
  · exact inv_withArg0 h hb v
  · exact inv_withArg1 h hb v
  · exact inv_writeInten h v
  · exact inv_storeIbuf h ws hw

/-! ### A host turn -/

theorem inv_hostAccess {s : State} (h : s.Inv) (a : Access) : (s.hostAccess a).Inv := by
  rcases hostAccess_cases s a with ⟨-, e⟩ | ⟨-, e⟩ <;> rw [e]
  · exact inv_withResponse h _
  · exact inv_withResponse (inv_memWrite h _ _ _) _

/-- R252: the delay is no part of what the latch must agree on with CMD, ARG0 and ARG1. -/
theorem inv_elapse {s : State} (h : s.Inv) : s.elapse.Inv :=
  { h with
    latchBusy := by simpa using h.latchBusy
    latched := fun p hp => by
      obtain ⟨q, hq, rfl⟩ := Option.map_eq_some_iff.1 hp
      exact h.latched q hq }

/-- R241: a reset keeps the capacities and empties everything else. -/
theorem inv_resetEvent {s : State} (h : s.Inv) : s.resetEvent.Inv :=
  { h with
    ibufForm := memory_wf_nil _
    obufForm := memory_wf_nil _
    latchBusy := rfl
    busyFlags := fun hb => by cases hb
    errorDone := fun he => absurd rfl he
    successInfo := fun _ _ => rfl
    latched := fun p hp => by cases hp
    cursorStart := fun _ => rfl }

theorem inv_hostTurn {s : State} (h : s.Inv) : s.hostTurn.Inv := by
  rcases hostTurn_cases s with
    ⟨-, e⟩ | ⟨rest, -, e⟩ | ⟨rest, -, e⟩ | ⟨rest, a, -, e⟩ | ⟨rest, r, -, -, e⟩ <;> rw [e]
  · exact inv_elapse h
  · exact inv_resetEvent (inv_withInputs (inv_elapse h) rest)
  · exact inv_withInputs (inv_elapse h) rest
  · exact inv_hostAccess (inv_withInputs (inv_elapse h) rest) a
  · exact inv_hostAccess (inv_withInputs (inv_elapse h) r) pollAccess

/-! ### A completion -/

/-- The two kinds of completion step: a success, whose OBUF writes lie inside OBUF, or an error, whose
code is not NONE (R95, R200, R203, R205). -/
theorem step_completing_cases {s t : State} {p : Pending} (hc : s.Completing p)
    (hs : step s = .next t) :
    (∃ res ws, (∀ c ∈ ws, c.1 < s.obufBytes) ∧ t = s.commitResult res ws) ∨
    (∃ code info, code ≠ .noError ∧ t = s.takeError code info) := by
  rw [step_completing s p hc] at hs
  rcases runCommand_cases p s with ⟨i, -, e⟩ | ⟨-, e⟩
  · rw [e, exec_some i s p hc.latched] at hs
    cases hs
    cases hr : resultOf i s p with
    | ok res ws => exact .inl ⟨res, ws, resultOf_writes_inside i s p res ws hr, rfl⟩
    | err code info => exact .inr ⟨code, info, resultOf_err_ne i s p code info hr, rfl⟩
  · rw [e] at hs
    cases hs
    exact .inr ⟨.illegalCommand, p.cmdword, by decide, rfl⟩

/-- R32, R200: a successful completion leaves ERRINFO as it stood while BUSY was 1, which is 0. -/
theorem inv_commitResult {s : State} (h : s.Inv) (hb : s.busy = true) (res : Word)
    (ws : List Host.Cell) (hw : ∀ c ∈ ws, c.1 < s.obufBytes) : (s.commitResult res ws).Inv :=
  { h with
    obufForm := memory_wf_setAll _ ws _ h.obufForm hw
    latchBusy := rfl
    busyFlags := fun hb' => by cases hb'
    errorDone := fun he => absurd rfl he
    successInfo := fun _ _ => errinfo_of_busy (s := s) h hb
    latched := fun p hp => by cases hp
    cursorStart := fun hb' => by cases hb' }

/-- R205: an error completion sets DONE beside its code. -/
theorem inv_takeError {s : State} (h : s.Inv) (code : ErrCode) (info : Word)
    (hcode : code ≠ .noError) : (s.takeError code info).Inv :=
  { h with
    latchBusy := rfl
    busyFlags := fun hb' => by cases hb'
    errorDone := fun _ => rfl
    successInfo := fun _ he => absurd he hcode
    latched := fun p hp => by cases hp
    cursorStart := fun hb' => by cases hb' }

/-- Every completion of a legal state gives a legal state, with DONE set. -/
theorem inv_done_of_completing {s t : State} {p : Pending} (h : s.Inv) (hc : s.Completing p)
    (hs : step s = .next t) : t.Inv ∧ t.done = true := by
  rcases step_completing_cases hc hs with ⟨res, ws, hw, rfl⟩ | ⟨code, info, hcode, rfl⟩
  · exact ⟨inv_commitResult h (busy_of_inv h hc.latched) res ws hw, rfl⟩
  · exact ⟨inv_takeError h code info hcode, rfl⟩

/-! ### What a host turn takes -/

/-- A step with no completion due is the host's turn. -/
theorem step_of_not_completing {s : State} (hc : ∀ p, ¬ s.Completing p) :
    step s = .next s.hostTurn := by
  rcases step_cases s with ⟨p, hp, -⟩ | ⟨-, e⟩
  · exact absurd hp (hc p)
  · exact e

/-- R72, R252: what a read answers depends neither on the delay of a pending command nor on the inputs
still to come. -/
theorem memRead_elapse_withInputs (s : State) (l : List Input) (width : Width) (off : Offset) :
    (s.elapse.withInputs l).memRead width off = s.memRead width off := rfl

/-- R66: nor does the response to a write. -/
theorem writeResponse_elapse_withInputs (s : State) (l : List Input) (width : Width) (off : Offset) :
    (s.elapse.withInputs l).writeResponse width off = s.writeResponse width off := rfl

/-- A read access at the head of the inputs. -/
theorem hostTurn_read {s : State} {a : Access} {rest : List Input}
    (hi : s.inputs = .access a :: rest) (hd : a.dir = .read) :
    s.hostTurn = (s.elapse.withInputs rest).withResponse (s.memRead a.width a.offset) := by
  simp only [State.hostTurn, hi, State.takeInput, State.hostAccess, hd, memRead_elapse_withInputs]

/-- A write access at the head of the inputs. -/
theorem hostTurn_write {s : State} {a : Access} {rest : List Input}
    (hi : s.inputs = .access a :: rest) (hd : a.dir = .write) :
    s.hostTurn = ((s.elapse.memWrite a.width a.offset a.data).withInputs rest).withResponse
      (s.writeResponse a.width a.offset) := by
  simp only [State.hostTurn, hi, State.takeInput, State.hostAccess, hd, memWrite_withInputs,
    writeResponse_elapse_withInputs]

end Sys2Proof.Machine

open Sys2Proof Sys2Proof.Machine

/-- Settles O8: a step is a completion or a host turn, and both keep the legal states. A completion
sets DONE, so `State.Inv.successInfo` of the next state gives the clause on ERRINFO. -/
theorem stepKeepsInv : Obligations.StepKeepsInv := by
  intro s t h hs
  rcases step_cases s with ⟨p, hc, -⟩ | ⟨hc, e⟩
  · obtain ⟨hinv, hdone⟩ := inv_done_of_completing h hc hs
    exact ⟨hinv, fun _ _ => hinv.successInfo hdone⟩
  · rw [e] at hs
    cases hs
    exact ⟨inv_hostTurn h, fun p hp => absurd hp (hc p)⟩

/-- Settles O60: the step is the host's turn, split by the head of the inputs and the direction of an
access. -/
theorem eachStepTakesTheNextInput : Obligations.EachStepTakesTheNextInput := by
  intro s hc
  rw [step_of_not_completing hc]
  refine ⟨rfl, fun hi => ?_, fun rest hi => ?_, fun a rest hi => ⟨s.hostTurn, rfl, ?_, ?_⟩⟩
  · simp only [State.hostTurn, hi]
  · simp only [State.hostTurn, hi, State.takeInput, State.withInputs]
  · exact fun hd => hostTurn_read hi hd
  · exact fun hd => hostTurn_write hi hd

end

section
/-!
The statements about the registers and the fields of the state: what a host read or write of each
register does, what a busy block drops, and what no step changes. The lemmas first say what an access to
a register's offset is, and then what a completion, a host access and a host turn leave alone.
-/

namespace Sys2Proof.Machine

/-! ### Accesses to the registers by their offsets -/

/-- R22: each register stands at its own offset. -/
@[simp] theorem csrAt_offset (r : Csr) : csrAt r.offset.toNat = r := by cases r <;> rfl

/-- R22, R64: every register's offset is an aligned one of the CSR region. -/
theorem csrOffset_aligned (r : Csr) : r.offset.toNat < 0x100 ∧ r.offset.toNat % 4 = 0 := by
  cases r <;> decide

theorem memWrite_csrOffset (s : State) (r : Csr) (w : Word) :
    s.memWrite .w32 r.offset w = s.writeCsr r w := by
  obtain ⟨hlt, h4⟩ := csrOffset_aligned r
  rw [(memWrite_csr s r.offset w hlt h4).1, csrAt_offset]

theorem writeResponse_csrOffset (s : State) (r : Csr) :
    (s.writeResponse .w32 r.offset).error = false := by
  obtain ⟨hlt, h4⟩ := csrOffset_aligned r
  exact (memWrite_csr s r.offset 0 hlt h4).2

theorem memRead_csrOffset (s : State) (r : Csr) :
    s.memRead .w32 r.offset = { data := s.readCsr r, error := false } := by
  obtain ⟨hlt, h4⟩ := csrOffset_aligned r
  rw [memRead_csr s r.offset hlt h4, csrAt_offset]

/-! ### What BUSY does to a write (R45) -/

theorem unlessBusy_of_busy {s : State} (hb : s.busy = true) (t : State) :
    s.unlessBusy t = s.dropWrite := if_pos hb

theorem unlessBusy_of_idle {s : State} (hb : s.busy = false) (t : State) : s.unlessBusy t = t :=
  if_neg (by simp [hb])

/-- R45: a busy block drops a write to CMD, ARG0 or ARG1. -/
theorem writeCsr_dropped {s : State} (hb : s.busy = true) {r : Csr}
    (hr : r = .cmd ∨ r = .arg0 ∨ r = .arg1) (w : Word) : s.writeCsr r w = s.dropWrite := by
  rcases hr with rfl | rfl | rfl <;> exact unlessBusy_of_busy hb _

/-- R45: a busy block drops every write that IBUF serves, and answers it with no error. -/
theorem memWrite_ibuf_dropped {s : State} (hb : s.busy = true) {width : Width} {off : Offset} {i : Nat}
    {lanes : Lanes} (ht : s.targetOf width off = .ibuf i lanes) (w : Word) :
    s.memWrite width off w = s.dropWrite ∧ (s.writeResponse width off).error = false := by
  simp only [State.memWrite, State.writeResponse, ht, unlessBusy_of_busy hb, writeErrs, and_self]

/-- R66: a write to the OBUF window is a bus error, inside the capacity and past it. -/
theorem memWrite_obufWindow (s : State) (width : Width) {off : Offset} (w : Word)
    (h1 : 0x20000 ≤ off.toNat) (h2 : off.toNat < 0x30000) :
    s.memWrite width off w = s ∧ (s.writeResponse width off).error = true := by
  simp only [State.memWrite, State.writeResponse, targetOf_obuf s width off h1 h2]
  cases bufferLanes s.obufBytes width (off.toNat - 0x20000) <;> exact ⟨rfl, rfl⟩

/-! ### STATUS and INTEN -/

/-- R25: a STATUS write touches DONE, ERR and BUSYWR only. -/
theorem writeStatus_eq (s : State) (w : Word) :
    s.writeStatus w =
      { s with
        done := !w.getLsbD 1 && s.done
        err := if w.getLsbD 1 then .noError else s.err
        busywr := !w.getLsbD 8 && s.busywr } := by
  unfold State.writeStatus
  cases w.getLsbD 1 <;> cases w.getLsbD 8 <;> rfl

/-- R24: the fields of STATUS, each at its place. -/
theorem statusWord_fields (s : State) :
    s.statusWord.getLsbD 0 = s.busy ∧ s.statusWord.getLsbD 1 = s.done ∧
      s.statusWord.extractLsb' 2 2 = 0 ∧ s.statusWord.extractLsb' 4 4 = s.err.bits ∧
      s.statusWord.getLsbD 8 = s.busywr ∧ s.statusWord.extractLsb' 9 23 = 0 := by
  unfold State.statusWord
  cases s.busy <;> cases s.done <;> cases s.busywr <;> cases s.err <;> decide

/-- R200: the codes that ERR can hold. -/
theorem errBits_le (e : ErrCode) : e.bits.toNat ≤ 3 := by cases e <;> decide

/-- R33: INTEN as a number. -/
theorem intenWord_eq (s : State) : s.intenWord = if s.doneIe then 1 else 0 := by
  unfold State.intenWord
  cases s.doneIe <;> decide

/-! ### What a step leaves alone -/

/-- R95, R205: every completion step, success or error, completes the command. -/
theorem completes_of_completing {s t : State} {p : Pending} (hc : s.Completing p)
    (hs : step s = .next t) : Completes s t := by
  rcases step_completing_cases hc hs with ⟨res, ws, -, rfl⟩ | ⟨code, info, -, rfl⟩
  · exact commitResult_completes s res ws
  · exact (takeError_rejects s code info).completes

/-- R28, R205: only a legal command that succeeds writes RESULT when it completes. -/
theorem command_of_result_ne {s t : State} {p : Pending} (hc : s.Completing p)
    (hs : step s = .next t) (hr : t.result ≠ s.result) :
    ∃ i, decode p.cmdword = .command i ∧ t.err = .noError := by
  rw [step_completing s p hc] at hs
  rcases runCommand_cases p s with ⟨i, hi, e⟩ | ⟨-, e⟩
  · rw [e, exec_some i s p hc.latched] at hs
    cases hs
    cases ho : resultOf i s p with
    | ok res ws => exact ⟨i, hi, rfl⟩
    | err code info => exact absurd (by rw [ho]; rfl) hr
  · rw [e] at hs
    cases hs
    exact absurd rfl hr

/-- What no host access changes: the capacities, RESULT and the epoch. -/
theorem hostAccess_frame (s : State) (a : Access) :
    (s.hostAccess a).ibufBytes = s.ibufBytes ∧ (s.hostAccess a).obufBytes = s.obufBytes ∧
      (s.hostAccess a).result = s.result ∧ (s.hostAccess a).epoch = s.epoch := by
  rcases hostAccess_cases s a with ⟨-, e⟩ | ⟨-, e⟩ <;> rw [e]
  · exact ⟨rfl, rfl, rfl, rfl⟩
  · obtain ⟨hi, ho, hr, -, he, -⟩ := memWrite_frame s a.width a.offset a.data
    exact ⟨hi, ho, hr, he⟩

/-- R45: no host write reaches IBUF while BUSY is 1. -/
theorem memWrite_busy_ibuf {s : State} (hb : s.busy = true) (width : Width) (off : Offset) (v : Word) :
    (s.memWrite width off v).ibuf = s.ibuf := by
  rcases memWrite_busy s width off v hb with e | e | e | e <;> rw [e]
  · exact dropWrite_ibuf s
  · exact writeStatus_ibuf s v
  · rfl

/-- R72: a read leaves IBUF alone. -/
theorem hostAccess_read_ibuf (s : State) {a : Access} (hd : a.dir = .read) :
    (s.hostAccess a).ibuf = s.ibuf := by
  rcases hostAccess_cases s a with ⟨-, e⟩ | ⟨hw, -⟩
  · rw [e]; rfl
  · simp [hd] at hw

/-- R36, R45, R72: a host access that changes IBUF is a write to an idle block. -/
theorem hostAccess_ibuf_cases (s : State) (a : Access) :
    (s.hostAccess a).ibuf = s.ibuf ∨ (s.busy = false ∧ a.dir = .write) := by
  rcases hostAccess_cases s a with ⟨hd, -⟩ | ⟨hd, e⟩
  · exact .inl (hostAccess_read_ibuf s hd)
  · cases hb : s.busy with
    | false => exact .inr ⟨rfl, hd⟩
    | true => exact .inl (by rw [e]; exact memWrite_busy_ibuf hb _ _ _)

/-- R29, R30, R241: a host turn keeps the capacities, a reset included. -/
theorem hostTurn_capacities (s : State) :
    s.hostTurn.ibufBytes = s.ibufBytes ∧ s.hostTurn.obufBytes = s.obufBytes := by
  rcases hostTurn_cases s with
    ⟨-, e⟩ | ⟨rest, -, e⟩ | ⟨rest, -, e⟩ | ⟨rest, a, -, e⟩ | ⟨rest, r, -, -, e⟩ <;> rw [e]
  · exact ⟨rfl, rfl⟩
  · exact ⟨rfl, rfl⟩
  · exact ⟨rfl, rfl⟩
  · obtain ⟨hi, ho, -, -⟩ := hostAccess_frame (s.elapse.withInputs rest) a
    exact ⟨hi, ho⟩
  · obtain ⟨hi, ho, -, -⟩ := hostAccess_frame (s.elapse.withInputs r) pollAccess
    exact ⟨hi, ho⟩

/-- R28, R242: a host turn keeps RESULT and the epoch unless it is a reset. -/
theorem hostTurn_result_epoch {s : State} (hr : s.inputs.head? ≠ some .reset) :
    s.hostTurn.result = s.result ∧ s.hostTurn.epoch = s.epoch := by
  rcases hostTurn_cases s with
    ⟨-, e⟩ | ⟨rest, hi, -⟩ | ⟨rest, -, e⟩ | ⟨rest, a, -, e⟩ | ⟨rest, r, -, -, e⟩
  · rw [e]; exact ⟨rfl, rfl⟩
  · simp [hi] at hr
  · rw [e]; exact ⟨rfl, rfl⟩
  · rw [e]
    obtain ⟨-, -, hres, he⟩ := hostAccess_frame (s.elapse.withInputs rest) a
    exact ⟨hres, he⟩
  · rw [e]
    obtain ⟨-, -, hres, he⟩ := hostAccess_frame (s.elapse.withInputs r) pollAccess
    exact ⟨hres, he⟩

/-- R36: a host turn that is no reset changes IBUF by a write to an idle block only. -/
theorem hostTurn_ibuf_cases {s : State} (hr : s.inputs.head? ≠ some .reset) :
    s.hostTurn.ibuf = s.ibuf ∨
      (s.busy = false ∧ ∃ a, s.inputs.head? = some (.access a) ∧ a.dir = .write) := by
  rcases hostTurn_cases s with
    ⟨-, e⟩ | ⟨rest, hi, -⟩ | ⟨rest, -, e⟩ | ⟨rest, a, hi, e⟩ | ⟨rest, r, -, -, e⟩
  · exact .inl (by rw [e]; rfl)
  · simp [hi] at hr
  · exact .inl (by rw [e]; rfl)
  · rw [e]
    exact (hostAccess_ibuf_cases (s.elapse.withInputs rest) a).imp id
      fun ⟨hb, hd⟩ => ⟨hb, a, by rw [hi]; rfl, hd⟩
  · exact .inl (by rw [e]; exact hostAccess_read_ibuf _ rfl)

/-! ### The placed command -/

theorem holdReset_head?_ne (l : List Input) : (holdReset l).head? ≠ some .reset := by
  unfold holdReset
  split <;> simp_all

/-- R94: the word in the latch is the one the machine completes next. -/
theorem latchCommand_completing (s : State) (w : Word) :
    (s.latchCommand w).Completing { cmdword := w, arg0 := s.arg0, arg1 := s.arg1, wait := 0 } :=
  ⟨rfl, rfl, holdReset_head?_ne s.inputs⟩

/-- R96: the next step runs the command that the placed word names. -/
theorem step_latchCommand (s : State) {w : Word} {i : Instr} (hd : decode w = .command i) :
    step (s.latchCommand w) = exec i (s.latchCommand w) := by
  rw [step_completing _ _ (latchCommand_completing s w)]
  simp only [runCommand, hd]

end Sys2Proof.Machine

open Sys2Proof Sys2Proof.Machine

/-- Settles O13: a host turn without a reset keeps RESULT, and a completion that changes it is one of a
legal command that succeeds. -/
theorem resultChangesOnlyAtACompletion : Obligations.ResultChangesOnlyAtACompletion := by
  intro s t hs hne
  by_cases hr : s.inputs.head? = some .reset
  · exact .inl hr
  · rcases step_cases s with ⟨p, hc, -⟩ | ⟨-, e⟩
    · obtain ⟨i, hi, he⟩ := command_of_result_ne hc hs hne
      exact .inr ⟨p, i, hc, hi, he⟩
    · rw [e] at hs
      cases hs
      exact absurd (hostTurn_result_epoch hr).1 hne

/-- Settles O15: a completion keeps every IBUF byte. A host turn without a reset keeps the epoch, so
a byte that changes is one that a write to the idle block stored. -/
theorem ibufWrittenOnlyByTheIdleHost : Obligations.IbufWrittenOnlyByTheIdleHost := by
  rintro s t hs ⟨i, hne⟩
  by_cases hr : s.inputs.head? = some .reset
  · exact .inl hr
  · rcases step_cases s with ⟨p, hc, -⟩ | ⟨-, e⟩
    · exact absurd ((completes_of_completing hc hs).ibufByte i) hne
    · rw [e] at hs
      cases hs
      rcases hostTurn_ibuf_cases hr with hkept | hwrite
      · exact absurd (ibufByte_congr s _ hkept (hostTurn_result_epoch hr).2 i) hne
      · exact .inr hwrite

/-- Settles O17: a completion and a host turn both keep the capacities. -/
theorem capacitiesNeverChange : Obligations.CapacitiesNeverChange := by
  intro s t hs
  rcases step_cases s with ⟨p, hc, -⟩ | ⟨-, e⟩
  · have h := completes_of_completing hc hs
    exact ⟨h.ibufBytes, h.obufBytes⟩
  · rw [e] at hs
    cases hs
    exact hostTurn_capacities s

/-- Settles O22: the registers, the two forms of an IBUF write, STATUS and INTEN, and the OBUF
window. -/
theorem busyDropsWrites : Obligations.BusyDropsWrites := by
  refine ⟨fun s off w hb hoff => ?_, fun s i w hb hi h16 => ?_, fun s i w hb h4 hi h16 => ?_,
    fun s w _ => ?_, fun s width off w h1 h2 => memWrite_obufWindow s width w h1 h2⟩
  · obtain ⟨r, hr, rfl⟩ : ∃ r : Csr, (r = .cmd ∨ r = .arg0 ∨ r = .arg1) ∧ off = r.offset := by
      rcases hoff with rfl | rfl | rfl
      · exact ⟨.cmd, by decide, rfl⟩
      · exact ⟨.arg0, by decide, rfl⟩
      · exact ⟨.arg1, by decide, rfl⟩
    exact ⟨(memWrite_csrOffset s r w).trans (writeCsr_dropped hb hr w), writeResponse_csrOffset s r⟩
  · exact memWrite_ibuf_dropped hb (targetOf_ibuf_w8 s i hi h16) w
  · exact memWrite_ibuf_dropped hb (targetOf_ibuf_w32 s i h4 hi h16) w
  · exact ⟨memWrite_csrOffset s .status w, writeResponse_csrOffset s .status,
      memWrite_csrOffset s .inten w, writeResponse_csrOffset s .inten⟩

/-- Settles O25: the read-only registers and the reserved offsets by the register there, STATUS and
INTEN by what their write stores. -/
theorem readOnlyAndReservedWritesAreIgnored : Obligations.ReadOnlyAndReservedWritesAreIgnored := by
  refine ⟨fun s off w hoff => ?_, fun s w h1 h8 => ⟨?_, writeResponse_csrOffset s .status⟩,
    fun s w h0 => ⟨?_, writeResponse_csrOffset s .inten⟩⟩
  · rcases hoff with rfl | rfl | rfl | rfl | rfl | ⟨hlo, hhi, h4⟩
    · exact ⟨memWrite_csrOffset s .result w, writeResponse_csrOffset s .result⟩
    · exact ⟨memWrite_csrOffset s .errinfo w, writeResponse_csrOffset s .errinfo⟩
    · exact ⟨memWrite_csrOffset s .ibufSize w, writeResponse_csrOffset s .ibufSize⟩
    · exact ⟨memWrite_csrOffset s .obufSize w, writeResponse_csrOffset s .obufSize⟩
    · exact ⟨memWrite_csrOffset s .id w, writeResponse_csrOffset s .id⟩
    · have h := memWrite_csr s off w hhi h4
      rwa [csrAt_reserved off.toNat hlo] at h
  · refine (memWrite_csrOffset s .status w).trans ?_
    simp only [State.writeCsr, State.writeStatus, h1, h8, Bool.false_eq_true, if_false]
  · refine (memWrite_csrOffset s .inten w).trans ?_
    simp only [State.writeCsr, State.writeInten, h0]

/-- Settles O28: a read of STATUS answers its word, whose fields `statusWord_fields` gives. -/
theorem statusReadsItsFields : Obligations.StatusReadsItsFields := by
  intro s
  rw [show s.memRead .w32 0x004 = _ from memRead_csrOffset s .status]
  obtain ⟨hbusy, hdone, h32, herr, hbusywr, h319⟩ := statusWord_fields s
  refine ⟨rfl, s.statusWord, rfl, hbusy, hdone, h32, herr, hbusywr, h319, errBits_le s.err, ?_⟩
  rw [herr]
  exact ⟨congrArg ErrCode.bits, congrArg ErrCode.bits, congrArg ErrCode.bits, congrArg ErrCode.bits⟩

/-- Settles O29: each register by the read at its offset, whatever BUSY is. -/
theorem registersReadTheirValues : Obligations.RegistersReadTheirValues := by
  intro s
  refine ⟨memRead_csrOffset s .cmd, memRead_csrOffset s .arg0, memRead_csrOffset s .arg1,
    memRead_csrOffset s .result, memRead_csrOffset s .errinfo, ?_, memRead_csrOffset s .ibufSize,
    memRead_csrOffset s .obufSize, memRead_csrOffset s .id, fun off hlo hhi h4 => ?_⟩
  · rw [← intenWord_eq]
    exact memRead_csrOffset s .inten
  · rw [memRead_csr s off hhi h4, csrAt_reserved off.toNat hlo]
    rfl

/-- Settles O6: the placed word is latched with no delay left and no reset ahead of it, so the next step
completes it. -/
theorem placedCommandRunsNext : Obligations.PlacedCommandRunsNext := by
  intro s i w hw hd
  have hmod : w % 2 ^ 32 = w := Nat.mod_eq_of_lt hw
  refine ⟨?_, ?_, _, rfl, rfl, rfl⟩
  · rw [decodeTableWord, hmod, if_pos hw, hd]
    rfl
  · rw [State.withFetchWord, hmod]
    exact step_latchCommand s hd

/-- Settles O21: the CMD write to an idle block starts a command, whose cursor is `Cursor.start`. -/
theorem cursorStartsAtZero : Obligations.CursorStartsAtZero := by
  intro s w hb
  have h : s.memWrite .w32 0x000 w = s.startCommand w :=
    (memWrite_csrOffset s .cmd w).trans (unlessBusy_of_idle hb _)
  rw [h]
  exact ⟨rfl, rfl, rfl⟩

/-- Settles O23: `writeStatus_eq` gives the frame, and the laws of STATUS writes the three fields. -/
theorem statusWriteClearsTheNamedBits : Obligations.StatusWriteClearsTheNamedBits := by
  intro s w
  refine ⟨s.writeStatus w, memWrite_csrOffset s .status w, fun h1 => ?_, fun h1 => ?_, fun h8 => ?_,
    fun h8 => ?_, writeStatus_busy s w, ?_⟩
  · rw [writeStatus_done, writeStatus_err, h1]
    exact ⟨rfl, rfl⟩
  · rw [writeStatus_done, writeStatus_err, h1]
    exact ⟨rfl, rfl⟩
  · rw [writeStatus_busywr, h8]
    rfl
  · rw [writeStatus_busywr, h8]
    rfl
  · rw [writeStatus_eq]

/-- Settles O24: an idle block stores the writes to ARG0 and ARG1, and INTEN is stored at any time. -/
theorem idleRegisterWritesStore : Obligations.IdleRegisterWritesStore := fun s w hb =>
  ⟨(memWrite_csrOffset s .arg0 w).trans (unlessBusy_of_idle hb _),
    (memWrite_csrOffset s .arg1 w).trans (unlessBusy_of_idle hb _),
    memWrite_csrOffset s .inten w⟩

/-- Settles O37: an INTEN write sets DONE_IE and keeps DONE, and a STATUS write with bit 1 set clears
DONE and keeps ERRINFO. -/
theorem irqIsDoneAndEnabled : Obligations.IrqIsDoneAndEnabled := by
  refine ⟨rfl, fun s => ⟨rfl, ?_⟩⟩
  have hinten (w : Word) : s.memWrite .w32 0x018 w = s.writeInten w := memWrite_csrOffset s .inten w
  have hstatus (w : Word) : s.memWrite .w32 0x004 w = s.writeStatus w := memWrite_csrOffset s .status w
  rw [hinten, hinten]
  refine ⟨fun hd => ?_, ⟨?_, writeInten_done s 0⟩, fun w h1 => ?_⟩
  · rw [State.irq, writeInten_done, hd]
    rfl
  · simp [State.irq]
  · rw [hstatus]
    refine ⟨?_, writeStatus_errinfo s w⟩
    rw [State.irq, writeStatus_done, h1]
    rfl

end

section
/-!
The statements about a command between its start and its completion: while it is pending, a step that does
not complete it is a host turn, and no host turn without a reset touches what the completion reads or what it
writes. So the completion gives what it would have given right after the start.
-/

namespace Sys2Proof.Machine

/-! ### What a host turn without a reset leaves alone -/

/-- R62, R66: no host access writes OBUF, and none takes from the queue of inputs. -/
theorem hostAccess_obuf_inputs (s : State) (a : Access) :
    (s.hostAccess a).obuf = s.obuf ∧ (s.hostAccess a).inputs = s.inputs := by
  rcases hostAccess_cases s a with ⟨-, e⟩ | ⟨-, e⟩ <;> rw [e]
  · exact ⟨rfl, rfl⟩
  · obtain ⟨-, -, -, hobuf, -, hinputs⟩ := memWrite_frame s a.width a.offset a.data
    exact ⟨hobuf, hinputs⟩

/-- R45: no host access reaches the latch while BUSY is 1. -/
theorem hostAccess_busy_pending {s : State} (hb : s.busy = true) (a : Access) :
    (s.hostAccess a).pending = s.pending := by
  rcases hostAccess_cases s a with ⟨-, e⟩ | ⟨-, e⟩ <;> rw [e, withResponse_pending]
  rcases memWrite_busy s a.width a.offset a.data hb with e | e | e | e <;> rw [e]
  · exact dropWrite_pending s
  · exact writeStatus_pending s a.data
  · exact writeInten_pending s a.data

theorem head?_ne_reset {s : State} (hr : s.NoReset) : s.inputs.head? ≠ some .reset :=
  fun h => hr (List.mem_of_mem_head? h)

/-- R62: a host turn that is no reset keeps OBUF. -/
theorem hostTurn_obuf {s : State} (hr : s.inputs.head? ≠ some .reset) : s.hostTurn.obuf = s.obuf := by
  rcases hostTurn_cases s with
    ⟨-, e⟩ | ⟨rest, hi, -⟩ | ⟨rest, -, e⟩ | ⟨rest, a, -, e⟩ | ⟨rest, r, -, -, e⟩
  · rw [e]; rfl
  · simp [hi] at hr
  · rw [e]; rfl
  · rw [e]; exact (hostAccess_obuf_inputs _ a).1
  · rw [e]; exact (hostAccess_obuf_inputs _ pollAccess).1

/-- R39, R252: while BUSY is 1, all that a host turn does to the latch is to shorten its delay. -/
theorem hostTurn_busy_pending {s : State} (hb : s.busy = true) (hr : s.inputs.head? ≠ some .reset) :
    s.hostTurn.pending = s.elapse.pending := by
  rcases hostTurn_cases s with
    ⟨-, e⟩ | ⟨rest, hi, -⟩ | ⟨rest, -, e⟩ | ⟨rest, a, -, e⟩ | ⟨rest, r, -, -, e⟩
  · rw [e]
  · simp [hi] at hr
  · rw [e]; rfl
  · rw [e]; exact hostAccess_busy_pending (s := s.elapse.withInputs rest) hb a
  · rw [e]; exact hostAccess_busy_pending (s := s.elapse.withInputs r) hb pollAccess

/-- A host turn puts nothing into the queue of inputs. -/
theorem hostTurn_inputs_subset (s : State) : s.hostTurn.inputs ⊆ s.inputs := by
  rcases hostTurn_cases s with
    ⟨-, e⟩ | ⟨rest, hi, e⟩ | ⟨rest, hi, e⟩ | ⟨rest, a, hi, e⟩ | ⟨rest, r, hi, hr, e⟩ <;> rw [e]
  · exact List.Subset.refl _
  · rw [hi]; exact List.subset_cons_self _ _
  · rw [hi]; exact List.subset_cons_self _ _
  · rw [(hostAccess_obuf_inputs _ a).2, hi]; exact List.subset_cons_self _ _
  · rw [(hostAccess_obuf_inputs _ pollAccess).2, withInputs_inputs]
    rcases hr with rfl | rfl
    · exact List.Subset.refl _
    · rw [hi]; exact List.subset_cons_self _ _

theorem hostTurn_noReset {s : State} (hr : s.NoReset) : s.hostTurn.NoReset :=
  fun h => hr (hostTurn_inputs_subset s h)

/-! ### Waiting for a completion -/

/-- A legal state in which the command `p` waits for its completion and no reset can come before it. -/
structure State.Waits (s : State) (p : Pending) : Prop where
  legal : s.Inv
  noReset : s.NoReset
  latched : s.pending = some p

/-- What a block keeps from `s` to `t` while a command waits: all that the completion reads or writes,
besides what the latch and `State.Inv` fix. -/
structure HoldsOperands (s t : State) : Prop where
  ibuf : t.ibuf = s.ibuf
  obuf : t.obuf = s.obuf
  result : t.result = s.result
  epoch : t.epoch = s.epoch
  ibufBytes : t.ibufBytes = s.ibufBytes
  obufBytes : t.obufBytes = s.obufBytes

theorem holdsOperands_refl (s : State) : HoldsOperands s s := ⟨rfl, rfl, rfl, rfl, rfl, rfl⟩

theorem holdsOperands_trans {s t u : State} (h : HoldsOperands s t) (h' : HoldsOperands t u) :
    HoldsOperands s u :=
  ⟨h'.ibuf.trans h.ibuf, h'.obuf.trans h.obuf, h'.result.trans h.result, h'.epoch.trans h.epoch,
    h'.ibufBytes.trans h.ibufBytes, h'.obufBytes.trans h.obufBytes⟩

/-- R24, R32: the flags while a command waits. -/
theorem flags_of_waits {s : State} {p : Pending} (h : s.Waits p) :
    s.busy = true ∧ s.done = false ∧ s.err = .noError ∧ s.errinfo = 0 := by
  have hb := busy_of_inv h.legal h.latched
  exact ⟨hb, h.legal.busyFlags hb⟩

/-- R252: a waiting command goes on waiting over a host turn, with its delay one step shorter. -/
theorem hostTurn_waits {s : State} {p : Pending} (h : s.Waits p) :
    s.hostTurn.Waits { p with wait := p.wait - 1 } where
  legal := inv_hostTurn h.legal
  noReset := hostTurn_noReset h.noReset
  latched := by
    obtain ⟨hb, -⟩ := flags_of_waits h
    rw [hostTurn_busy_pending hb (head?_ne_reset h.noReset), elapse_pending, h.latched]
    rfl

/-- R45, R78: whatever the host does in one turn, a waiting command keeps its operands. -/
theorem hostTurn_holdsOperands {s : State} {p : Pending} (h : s.Waits p) :
    HoldsOperands s s.hostTurn := by
  have hr := head?_ne_reset h.noReset
  obtain ⟨hb, -⟩ := flags_of_waits h
  obtain ⟨hres, hepoch⟩ := hostTurn_result_epoch hr
  obtain ⟨hic, hoc⟩ := hostTurn_capacities s
  refine ⟨?_, hostTurn_obuf hr, hres, hepoch, hic, hoc⟩
  rcases hostTurn_ibuf_cases hr with hkept | ⟨hidle, -⟩
  · exact hkept
  · simp [hb] at hidle

/-- R78, R252: over the first `k` steps of its delay a waiting command only waits. -/
theorem run_waits (k : Nat) {s : State} {p : Pending} (h : s.Waits p) (hk : k ≤ p.wait) :
    ∃ t, Sys2Proof.core.run k s = .next t ∧ t.Waits { p with wait := p.wait - k } ∧
      HoldsOperands s t := by
  induction k generalizing s p with
  | zero => exact ⟨s, rfl, h, holdsOperands_refl s⟩
  | succ k ih =>
    have hstep : step s = .next s.hostTurn := step_of_not_completing fun q hq => by
      have hqp : p = q := Option.some.inj (h.latched.symm.trans hq.latched)
      have hq0 : p.wait = 0 := hqp ▸ hq.elapsed
      omega
    obtain ⟨t, hrun, hw, hold⟩ := ih (hostTurn_waits h) (by dsimp only; omega)
    refine ⟨t, (run_succ k s _ hstep).trans hrun, ?_, holdsOperands_trans (hostTurn_holdsOperands h) hold⟩
    rwa [Nat.sub_sub, Nat.add_comm 1 k] at hw

/-! ### The completion at the end of the delay -/

/-- A run that goes on from where a run ended. -/
theorem run_add (k j : Nat) {s t : State} (h : Sys2Proof.core.run k s = .next t) :
    Sys2Proof.core.run (k + j) s = Sys2Proof.core.run j t := by
  induction k generalizing s with
  | zero => cases h; rw [Nat.zero_add]
  | succ k ih =>
    rw [Nat.succ_add]
    simp only [Host.Core.run] at h ⊢
    cases hs : Sys2Proof.core.step s with
    | next u => rw [hs] at h; exact ih h
    | fault r => rw [hs] at h; cases h
    | refused r => rw [hs] at h; cases h

/-- R95: a waiting command whose delay has passed is due. -/
theorem completing_of_waits {s : State} {p : Pending} (h : s.Waits p) (h0 : p.wait = 0) :
    s.Completing p := ⟨h.latched, h0, head?_ne_reset h.noReset⟩

/-- R96: the outcome of a command depends on its operands only, not on the delay in the latch. -/
theorem resultOf_of_holdsOperands {s t : State} (h : HoldsOperands s t) (i : Instr) (p : Pending)
    (n : Nat) : resultOf i t { p with wait := n } = resultOf i s p := by
  have hb : t.ibufByte = s.ibufByte := funext (ibufByte_congr s t h.ibuf h.epoch)
  cases i <;> simp only [resultOf, Pending.operand0, Pending.operand1, hb, h.ibufBytes, h.obufBytes]

/-- R78, R95, R252: a waiting command completes in the step after its delay, in a state that has held its
operands, so with the outcome that it has now. -/
theorem run_completes {s : State} {p : Pending} {i : Instr} (h : s.Waits p)
    (hd : decode p.cmdword = .command i) :
    ∃ t, Sys2Proof.core.run (p.wait + 1) s = .next (t.completeWith (resultOf i s p)) ∧
      t.Waits { p with wait := 0 } ∧ HoldsOperands s t := by
  obtain ⟨t, hrun, hw, hold⟩ := run_waits p.wait h (Nat.le_refl p.wait)
  rw [Nat.sub_self] at hw
  have hstep : step t = .next (t.completeWith (resultOf i s p)) := by
    rw [step_completing t _ (completing_of_waits hw rfl), ← resultOf_of_holdsOperands hold i p 0]
    simp only [runCommand, hd]
    exact exec_some i t _ hw.latched
  refine ⟨t, ?_, hw, hold⟩
  rw [run_add p.wait 1 hrun, run_succ 0 t _ hstep]
  rfl

/-- R95, R205: one outcome completes alike in two states that agree in what a completion keeps. -/
theorem completeWith_congr {s t : State} (hold : HoldsOperands s t) (hinfo : t.errinfo = s.errinfo)
    (r : CommandResult) :
    (t.completeWith r).err = (s.completeWith r).err ∧
      (t.completeWith r).errinfo = (s.completeWith r).errinfo ∧
      (t.completeWith r).result = (s.completeWith r).result ∧
      (t.completeWith r).obuf = (s.completeWith r).obuf := by
  cases r with
  | ok res ws => exact ⟨rfl, hinfo, rfl, congrArg (·.setAll ws) hold.obuf⟩
  | err code info => exact ⟨rfl, rfl, hold.result, hold.obuf⟩

theorem completeWith_completes (s : State) (r : CommandResult) : Completes s (s.completeWith r) := by
  cases r with
  | ok res ws => exact commitResult_completes s res ws
  | err code info => exact (takeError_rejects s code info).completes

/-! ### The CMD write that starts a command -/

/-- R94: a CMD write to an idle block starts a command. -/
theorem memWrite_cmd_idle {s : State} (hb : s.busy = false) (w : Word) :
    s.memWrite .w32 0x000 w = s.startCommand w :=
  (memWrite_csrOffset s .cmd w).trans (unlessBusy_of_idle hb _)

/-- R94: the started command waits, with the written word in the latch. -/
theorem startCommand_waits {s : State} (h : s.Inv) (hr : s.NoReset) (w : Word) :
    ∃ p, (s.startCommand w).Waits p ∧ p.cmdword = w :=
  ⟨_, ⟨inv_startCommand h w, hr, startCommand_pending s w⟩, rfl⟩

/-! ### The commands that write OBUF -/

/-- R62: a command other than ENCODE and DECODE leaves OBUF alone, whatever its outcome. -/
theorem completeWith_obuf_cases (s : State) (i : Instr) (p : Pending) :
    i = .encode ∨ i = .decode ∨ (s.completeWith (resultOf i s p)).obuf = s.obuf := by
  cases i with
  | encode => exact .inl rfl
  | decode => exact .inr (.inl rfl)
  | encSize => exact .inr (.inr rfl)
  | decSize => exact .inr (.inr rfl)
  | lutFwd =>
    simp only [resultOf, lutFwdResult]
    split <;> exact .inr (.inr rfl)
  | lutRev =>
    simp only [resultOf, lutRevResult]
    split <;> exact .inr (.inr rfl)

/-- R62, R205: a completion step that changes OBUF is one of ENCODE or DECODE. -/
theorem completing_obuf_cases {s t : State} {p : Pending} (hc : s.Completing p)
    (hs : step s = .next t) :
    t.obuf = s.obuf ∨ decode p.cmdword = .command .encode ∨ decode p.cmdword = .command .decode := by
  rw [step_completing s p hc] at hs
  rcases runCommand_cases p s with ⟨i, hi, e⟩ | ⟨-, e⟩
  · rw [e, exec_some i s p hc.latched] at hs
    cases hs
    rcases completeWith_obuf_cases s i p with rfl | rfl | hkept
    · exact .inr (.inl hi)
    · exact .inr (.inr hi)
    · exact .inl hkept
  · rw [e] at hs
    cases hs
    exact .inl rfl

end Sys2Proof.Machine

open Sys2Proof Sys2Proof.Machine

/-- Settles O10: by `run_waits`, an induction over the steps. The latch fixes CMD, ARG0 and ARG1 of a legal
state, and BUSY its flags. -/
theorem operandsHoldUntilCompletion : Obligations.OperandsHoldUntilCompletion := by
  intro s p k hinv hr hp hk
  obtain ⟨t, hrun, hw, hold⟩ := run_waits k ⟨hinv, hr, hp⟩ hk
  obtain ⟨hbusy, hdone, herr, hinfo⟩ := flags_of_waits hw
  obtain ⟨hcmd, harg0, harg1⟩ := hinv.latched p hp
  obtain ⟨hcmd', harg0', harg1'⟩ := hw.legal.latched _ hw.latched
  exact ⟨t, hrun, hw.latched, hbusy, hdone, herr, hinfo, hcmd'.symm.trans hcmd, harg0'.symm.trans harg0,
    harg1'.symm.trans harg1, hold.ibuf, ibufByte_congr s t hold.ibuf hold.epoch, hold.obuf, hold.result,
    hold.ibufBytes, hold.obufBytes, hw.noReset⟩

/-- Settles O12: the started command waits, and completes in a state that has held its operands, so with
the outcome it has right after the write. -/
theorem outcomeIsFixedAtTheStart : Obligations.OutcomeIsFixedAtTheStart := by
  intro s w i hinv hr hb hd
  rw [memWrite_cmd_idle hb]
  obtain ⟨p, hstart, rfl⟩ := startCommand_waits hinv hr w
  obtain ⟨t, hrun, hw, hold⟩ := run_completes hstart hd
  obtain ⟨-, -, -, hinfo⟩ := flags_of_waits hw
  obtain ⟨herr, herrinfo, hresult, hobuf⟩ :=
    completeWith_congr hold hinfo (resultOf i (s.startCommand p.cmdword) p)
  have hc := completeWith_completes t (resultOf i (s.startCommand p.cmdword) p)
  exact ⟨_, _, _, exec_some i _ _ hstart.latched, hrun, hc.busy, hc.done, hc.latch, herr, herrinfo,
    hresult, hobuf, hc.ibuf.trans hold.ibuf⟩

/-- Settles O14: a host turn without a reset keeps OBUF and the epoch, and so does a completion that is
not one of ENCODE or DECODE. -/
theorem obufWrittenOnlyByEncodeAndDecode : Obligations.ObufWrittenOnlyByEncodeAndDecode := by
  rintro s t hs ⟨i, hne⟩
  by_cases hr : s.inputs.head? = some .reset
  · exact .inl hr
  · rcases step_cases s with ⟨p, hc, -⟩ | ⟨-, e⟩
    · rcases completing_obuf_cases hc hs with hkept | hwriter
      · exact absurd (obufByte_congr s t hkept (completes_of_completing hc hs).epoch i) hne
      · exact .inr ⟨p, hc, hwriter⟩
    · rw [e] at hs
      cases hs
      exact absurd (obufByte_congr s _ (hostTurn_obuf hr) (hostTurn_result_epoch hr).2 i) hne

end

section
/-!
The statements about the host port as a memory: which accesses are bus errors, what a read of a buffer
window returns, and what a write to IBUF stores.
-/

namespace Sys2Proof.Machine

/-! ### Which accesses are bus errors -/

/-- R66: a read errs exactly when it has no target. -/
theorem memRead_error_iff (s : State) (width : Width) (off : Offset) :
    (s.memRead width off).error = false ↔ s.targetOf width off ≠ .busError := by
  unfold State.memRead
  cases s.targetOf width off <;> simp [errorResponse]

/-- R66: an access without a target is a bus error in both directions. -/
theorem errors_of_busError {s : State} {width : Width} {off : Offset}
    (h : s.targetOf width off = .busError) :
    (s.memRead width off).error = true ∧ (s.writeResponse width off).error = true := by
  simp only [State.memRead, State.writeResponse, h]
  exact ⟨rfl, rfl⟩

/-- R64: a buffer serves no 16-bit and no 64-bit access. -/
theorem bufferLanes_of_unserved {width : Width} (h : width = .w16 ∨ width = .w64) (cap i : Nat) :
    bufferLanes cap width i = none := by
  rcases h with rfl | rfl <;> rfl

/-- R63, R64: a 16-bit or 64-bit access has no target anywhere. -/
theorem targetOf_of_unserved (s : State) {width : Width} (h : width = .w16 ∨ width = .w64)
    (off : Offset) : s.targetOf width off = .busError := by
  by_cases hcsr : off.toNat < 0x100
  · rw [targetOf_csr s width off hcsr]
    rcases h with rfl | rfl <;> rfl
  · by_cases hibuf : 0x10000 ≤ off.toNat ∧ off.toNat < 0x20000
    · rw [targetOf_ibuf s width off hibuf.1 hibuf.2, bufferLanes_of_unserved h]
      rfl
    · by_cases hobuf : 0x20000 ≤ off.toNat ∧ off.toNat < 0x30000
      · rw [targetOf_obuf s width off hobuf.1 hobuf.2, bufferLanes_of_unserved h]
        rfl
      · exact targetOf_unmapped s width off (by omega)

/-- R64: the accesses that a buffer of `cap` bytes serves in a window from `base` up. -/
theorem bufferLanes_isSome_iff (cap : Nat) (width : Width) {base off : Nat} (hbase : base % 4 = 0)
    (hoff : base ≤ off) :
    (bufferLanes cap width (off - base)).isSome ↔
      (width = .w8 ∧ off < base + cap) ∨ (width = .w32 ∧ off % 4 = 0 ∧ off + 3 < base + cap) := by
  cases width with
  | w8 =>
    simp only [bufferLanes, Option.isSome_ite, true_and, reduceCtorEq, false_and, or_false]
    omega
  | w32 =>
    simp only [bufferLanes, Option.isSome_ite, reduceCtorEq, false_and, true_and, false_or]
    omega
  | w16 => simp [bufferLanes]
  | w64 => simp [bufferLanes]

theorem ibufTarget_ne_busError_iff (i : Nat) (lanes : Option Lanes) :
    ibufTarget i lanes ≠ .busError ↔ lanes.isSome := by
  cases lanes <;> simp [ibufTarget]

theorem obufTarget_ne_busError_iff (i : Nat) (lanes : Option Lanes) :
    obufTarget i lanes ≠ .busError ↔ lanes.isSome := by
  cases lanes <;> simp [obufTarget]

/-- R61, R66: in the IBUF window a write errs exactly when a read does. -/
theorem ibufWindow_errors_agree (s : State) (width : Width) {off : Offset} (h1 : 0x10000 ≤ off.toNat)
    (h2 : off.toNat < 0x20000) : (s.writeResponse width off).error = (s.memRead width off).error := by
  simp only [State.writeResponse, State.memRead, targetOf_ibuf s width off h1 h2]
  cases bufferLanes s.ibufBytes width (off.toNat - 0x10000) <;> rfl

/-! ### Reads of the buffers -/

/-- R61, R65: a read that IBUF serves returns the stored bytes. -/
theorem memRead_of_ibuf {s : State} {width : Width} {off : Offset} {i : Nat} {lanes : Lanes}
    (h : s.targetOf width off = .ibuf i lanes) :
    s.memRead width off = { data := readLanes s.ibufByte i lanes, error := false } := by
  simp only [State.memRead, h]

/-- R62, R67: a read that OBUF serves returns the bytes that BUSY lets the host see. -/
theorem memRead_of_obuf {s : State} {width : Width} {off : Offset} {i : Nat} {lanes : Lanes}
    (h : s.targetOf width off = .obuf i lanes) :
    s.memRead width off = { data := readLanes s.visibleObufByte i lanes, error := false } := by
  simp only [State.memRead, h]

theorem visibleObufByte_of_idle {s : State} (hb : s.busy = false) : s.visibleObufByte = s.obufByte := by
  funext i
  simp [State.visibleObufByte, hb]

/-- R67: while BUSY is 1 every lane of an OBUF read is 0. -/
theorem readLanes_visible_of_busy {s : State} (hb : s.busy = true) (i : Nat) (lanes : Lanes) :
    readLanes s.visibleObufByte i lanes = 0 := by
  cases lanes <;> simp [readLanes, zext32, wordOfLanes, State.visibleObufByte, hb]

/-- R67: a busy block answers every read that OBUF serves with data 0 and no error. -/
theorem memRead_of_obuf_busy {s : State} (hb : s.busy = true) {width : Width} {off : Offset} {i : Nat}
    {lanes : Lanes} (h : s.targetOf width off = .obuf i lanes) :
    s.memRead width off = { data := 0, error := false } := by
  rw [memRead_of_obuf h, readLanes_visible_of_busy hb]

/-- R72: a read only records its response. -/
theorem hostAccess_of_read (s : State) {a : Access} (hd : a.dir = .read) :
    s.hostAccess a = s.withResponse (s.memRead a.width a.offset) := by
  simp only [State.hostAccess, hd]

/-- R72: what a read answers does not depend on an earlier response. -/
theorem memRead_withResponse (s : State) (r : Response) (width : Width) (off : Offset) :
    (s.withResponse r).memRead width off = s.memRead width off := rfl

/-! ### Writes to IBUF -/

/-- R61: an idle block stores a write that IBUF serves, with no error. -/
theorem memWrite_ibuf_idle {s : State} (hb : s.busy = false) {width : Width} {off : Offset} {i : Nat}
    {lanes : Lanes} (h : s.targetOf width off = .ibuf i lanes) (w : Word) :
    s.memWrite width off w = s.storeIbuf (laneWrites i w lanes) ∧
      (s.writeResponse width off).error = false := by
  simp only [State.memWrite, State.writeResponse, h, unlessBusy_of_idle hb, writeErrs, and_self]

/-- R61: a stored byte reads back, and every other index reads as before. -/
theorem ibufByte_storeIbuf_single (s : State) (i : Nat) (v : Byte) (j : Nat) :
    (s.storeIbuf [(i, v)]).ibufByte j = if j = i then v else s.ibufByte j := by
  simp only [State.ibufByte, storeIbuf_ibuf, storeIbuf_epoch, memory_setAll_cons, memory_setAll_nil,
    memory_get?_set]
  by_cases h : j = i
  · rw [if_pos h, if_pos h]
  · rw [if_neg h, if_neg h]

/-- R65: each of the four bytes of a word reads back, and every other index reads as before. -/
theorem ibufByte_storeIbuf_word (s : State) (i : Nat) (w : Word) (j : Nat) :
    (s.storeIbuf (laneWrites i w .four)).ibufByte j =
      if j = i + 3 then laneOfWord w 3 else if j = i + 2 then laneOfWord w 2
      else if j = i + 1 then laneOfWord w 1 else if j = i then laneOfWord w 0 else s.ibufByte j := by
  have hseq : s.storeIbuf (laneWrites i w .four) =
      (((s.storeIbuf [(i, laneOfWord w 0)]).storeIbuf [(i + 1, laneOfWord w 1)]).storeIbuf
        [(i + 2, laneOfWord w 2)]).storeIbuf [(i + 3, laneOfWord w 3)] := rfl
  rw [hseq]
  simp only [ibufByte_storeIbuf_single]

end Sys2Proof.Machine

open Sys2Proof Sys2Proof.Machine

/-- Settles O33: in the CSR region an access has a target exactly when it is an aligned word. -/
theorem csrAccessesAreAlignedWords : Obligations.CsrAccessesAreAlignedWords := by
  intro s width off hoff
  by_cases h : width = .w32 ∧ off.toNat % 4 = 0
  · obtain ⟨rfl, h4⟩ := h
    rw [memRead_csr s off hoff h4, (memWrite_csr s off 0 hoff h4).2]
    simp [h4]
  · have ht : s.targetOf width off = .busError := by rw [targetOf_csr s width off hoff, if_neg h]
    obtain ⟨hread, hwrite⟩ := errors_of_busError ht
    simp [hread, hwrite, h]

/-- Settles O34: in each window an access has a target exactly when the buffer serves it, by
`bufferLanes_isSome_iff`. -/
theorem bufferAccessesStayInsideTheBuffer : Obligations.BufferAccessesStayInsideTheBuffer := by
  refine fun s width off => ⟨fun hw => errors_of_busError (targetOf_of_unserved s hw off),
    fun h1 h2 => ⟨?_, ibufWindow_errors_agree s width h1 h2⟩,
    fun h1 h2 => ⟨?_, (memWrite_obufWindow s width 0 h1 h2).2⟩⟩
  · rw [memRead_error_iff, targetOf_ibuf s width off h1 h2, ibufTarget_ne_busError_iff,
      bufferLanes_isSome_iff s.ibufBytes width (by decide) h1]
  · rw [memRead_error_iff, targetOf_obuf s width off h1 h2, obufTarget_ne_busError_iff,
      bufferLanes_isSome_iff s.obufBytes width (by decide) h1]

/-- Settles O35: neither an unmapped offset nor an unserved width has a target. -/
theorem unmappedAccessesAreBusErrors : Obligations.UnmappedAccessesAreBusErrors := by
  rintro s width off (hlow | hhigh | hw16 | hw64)
  · exact errors_of_busError (targetOf_unmapped s width off (.inl hlow))
  · exact errors_of_busError (targetOf_unmapped s width off (.inr hhigh))
  · exact errors_of_busError (targetOf_of_unserved s (.inl hw16) off)
  · exact errors_of_busError (targetOf_of_unserved s (.inr hw64) off)

/-- Settles O30: both widths have their target in IBUF, whose read does not look at BUSY. -/
theorem ibufReadsAreLittleEndian : Obligations.IbufReadsAreLittleEndian := fun s i hi h16 =>
  ⟨memRead_of_ibuf (targetOf_ibuf_w8 s i hi h16), fun h4 hi3 =>
    memRead_of_ibuf (targetOf_ibuf_w32 s i h4 hi3 (by omega))⟩

/-- Settles O31: both widths have their target in OBUF, of which BUSY decides what is visible. -/
theorem obufReadsZeroWhileBusy : Obligations.ObufReadsZeroWhileBusy := by
  intro s i hi h16
  have ht8 := targetOf_obuf_w8 s i hi h16
  have ht32 (h4 : i % 4 = 0) (hi3 : i + 3 < s.obufBytes) := targetOf_obuf_w32 s i h4 hi3 (by omega)
  refine ⟨fun hb => ?_, fun hb => ⟨memRead_of_obuf_busy hb ht8, ?_,
    fun h4 hi3 => memRead_of_obuf_busy hb (ht32 h4 hi3)⟩⟩
  · rw [← visibleObufByte_of_idle hb]
    exact ⟨memRead_of_obuf ht8, fun h4 hi3 => memRead_of_obuf (ht32 h4 hi3)⟩
  · rw [hostAccess_of_read s rfl, memRead_of_obuf_busy hb ht8]
    rfl

/-- Settles O32: a read records its response, on which no later read depends. -/
theorem readsHaveNoSideEffect : Obligations.ReadsHaveNoSideEffect := by
  intro s a hd
  rw [hostAccess_of_read s hd, hostAccess_of_read _ hd, memRead_withResponse]
  exact ⟨rfl, rfl⟩

/-- Settles O26: the idle block stores the one byte of the access. -/
theorem ibufByteWriteStoresOneByte : Obligations.IbufByteWriteStoresOneByte := by
  intro s i w hb hi h16
  obtain ⟨hwrite, hresp⟩ := memWrite_ibuf_idle hb (targetOf_ibuf_w8 s i hi h16) w
  refine ⟨_, hwrite, ?_, fun j hj => ?_, rfl, hresp⟩
  · exact (ibufByte_storeIbuf_single s i (laneOfWord w 0) i).trans (if_pos rfl)
  · exact (ibufByte_storeIbuf_single s i (laneOfWord w 0) j).trans (if_neg hj)

/-- Settles O27: the idle block stores the four lanes of the access. -/
theorem ibufWordWriteIsLittleEndian : Obligations.IbufWordWriteIsLittleEndian := by
  intro s i w hb h4 hi h16
  obtain ⟨hwrite, hresp⟩ := memWrite_ibuf_idle hb (targetOf_ibuf_w32 s i h4 hi h16) w
  refine ⟨_, hwrite, ?_, ?_, ?_, ?_, fun j hj => ?_, rfl, hresp⟩ <;> rw [ibufByte_storeIbuf_word]
  · simp [laneOfWord]
  · simp [laneOfWord]
  · simp [laneOfWord]
  · simp [laneOfWord]
  · rw [if_neg (by omega), if_neg (by omega), if_neg (by omega), if_neg (by omega)]

end

section
/-!
The statements about command words, the meanings they select and host scripts: which word the decoder reads
each command from, what a completion keeps and what it depends on, and how a host's polling, its
pseudo-instructions and its test records read.
-/

namespace Sys2Proof.Machine

/-! ### Command words (R90 to R92) -/

/-- R90, R91: the facts on command words of `Laws.CommandWord`, for every command. -/
theorem commandWord (i : Instr) : Laws.CommandWord.Statement i := by
  cases i with
  | encode => exact Laws.CommandWord.encode
  | decode => exact Laws.CommandWord.decode
  | encSize => exact Laws.CommandWord.encSize
  | decSize => exact Laws.CommandWord.decSize
  | lutFwd => exact Laws.CommandWord.lutFwd
  | lutRev => exact Laws.CommandWord.lutRev

/-- R91: the OP codes lie in 0x1 to 0x6. -/
theorem opCode_range (i : Instr) : 1 ≤ (opCode i).toNat ∧ (opCode i).toNat ≤ 6 := by
  cases i <;> decide

theorem decode_encode (i : Instr) : decode (encode i) = .command i := by
  cases i <;> decide

/-- R90: the two fields make up the whole word. -/
theorem toNat_eq_fields (w : Word) :
    w.toNat = 16 * (fieldsOf w).rsv.toNat + (fieldsOf w).op.toNat := by
  have hw := w.isLt
  simp only [fieldsOf, BitVec.extractLsb'_toNat, Nat.shiftRight_eq_div_pow]
  omega

/-- R91: the words that name a command are those from 1 to 6. -/
theorem exists_eq_encode_iff (w : Word) : (∃ i, w = encode i) ↔ 1 ≤ w.toNat ∧ w.toNat ≤ 6 := by
  constructor
  · rintro ⟨i, rfl⟩
    obtain ⟨-, -, hw, -⟩ := commandWord i
    rw [hw]
    exact opCode_range i
  · rintro ⟨h1, h6⟩
    have hcases : w.toNat = 1 ∨ w.toNat = 2 ∨ w.toNat = 3 ∨ w.toNat = 4 ∨ w.toNat = 5 ∨
        w.toNat = 6 := by omega
    rcases hcases with h | h | h | h | h | h
    · exact ⟨.encode, BitVec.eq_of_toNat_eq h⟩
    · exact ⟨.decode, BitVec.eq_of_toNat_eq h⟩
    · exact ⟨.encSize, BitVec.eq_of_toNat_eq h⟩
    · exact ⟨.decSize, BitVec.eq_of_toNat_eq h⟩
    · exact ⟨.lutFwd, BitVec.eq_of_toNat_eq h⟩
    · exact ⟨.lutRev, BitVec.eq_of_toNat_eq h⟩

/-- R91, R92: a word that the decoder accepts has RSV 0 and OP in 1 to 6. -/
theorem range_of_decode_eq_command {w : Word} {i : Instr} (h : decode w = .command i) :
    1 ≤ w.toNat ∧ w.toNat ≤ 6 := by
  have hw := toNat_eq_fields w
  unfold decode at h
  split at h
  · rename_i hz
    have hrsv : (fieldsOf w).rsv.toNat = 0 := by
      simpa [CommandFields.rsvZero, BitVec.toNat_eq] using hz
    split at h
    case h_7 => cases h
    all_goals omega
  · cases h

/-- R91: the whole word selects the command. -/
theorem decode_eq_command_iff (w : Word) (i : Instr) : decode w = .command i ↔ w = encode i := by
  constructor
  · intro h
    obtain ⟨j, rfl⟩ := (exists_eq_encode_iff w).2 (range_of_decode_eq_command h)
    rw [decode_encode] at h
    cases h
    rfl
  · rintro rfl
    exact decode_encode i

/-- R92: a word that names no command is illegal. -/
theorem exists_decode_eq_illegal_iff (w : Word) :
    (∃ why, decode w = .illegal why) ↔ ¬ ∃ i, decode w = .command i := by
  cases decode w <;> simp

theorem exists_decode_eq_command_iff (w : Word) :
    (∃ i, decode w = .command i) ↔ 1 ≤ w.toNat ∧ w.toNat ≤ 6 := by
  simp only [decode_eq_command_iff, exists_eq_encode_iff]

/-- R92: the range of the legal words, by their fields. -/
theorem legal_range_iff_fields (w : Word) :
    (1 ≤ w.toNat ∧ w.toNat ≤ 6) ↔
      (fieldsOf w).rsv = 0 ∧ 1 ≤ (fieldsOf w).op.toNat ∧ (fieldsOf w).op.toNat ≤ 6 := by
  have hw := toNat_eq_fields w
  have hz : (fieldsOf w).rsv = 0 ↔ (fieldsOf w).rsv.toNat = 0 := by simp [BitVec.toNat_eq]
  rw [hz]
  omega

/-! ### A completion step by its word -/

/-- R96: a word that names a command completes with that command's meaning. -/
theorem runCommand_of_command {p : Pending} {i : Instr} (h : decode p.cmdword = .command i) (s : State) :
    runCommand p s = exec i s := by
  simp only [runCommand, h]

/-- R92, R203: a word that names no command completes with ILLEGAL_COMMAND. -/
theorem runCommand_of_illegal {p : Pending} (h : ∀ i, decode p.cmdword ≠ .command i) (s : State) :
    runCommand p s = .next (s.completeIllegal p.cmdword) := by
  rcases runCommand_cases p s with ⟨i, hi, -⟩ | ⟨-, e⟩
  · exact absurd hi (h i)
  · exact e

/-! ### What an outcome depends on -/

/-- R96: the outcome of a command is a function of the operands, the capacities and the IBUF bytes. -/
theorem resultOf_congr {s1 s2 : State} {p1 p2 : Pending} (i : Instr) (h0 : p1.arg0 = p2.arg0)
    (h1 : p1.arg1 = p2.arg1) (hic : s1.ibufBytes = s2.ibufBytes) (hoc : s1.obufBytes = s2.obufBytes)
    (hib : ∀ k, s1.ibufByte k = s2.ibufByte k) : resultOf i s1 p1 = resultOf i s2 p2 := by
  have hb : s1.ibufByte = s2.ibufByte := funext hib
  cases i <;> simp only [resultOf, Pending.operand0, Pending.operand1, h0, h1, hic, hoc, hb]

/-- A list of writes leaves an index alone in every buffer, or leaves one byte there in every buffer. -/
theorem memory_get?_setAll_kept_or_const (ws : List Host.Cell) (a : Nat) :
    (∀ m : Memory, (m.setAll ws).get? a = m.get? a) ∨
      ∃ v, ∀ m : Memory, (m.setAll ws).get? a = some v := by
  induction ws with
  | nil => exact .inl fun _ => rfl
  | cons c rest ih =>
    simp only [memory_setAll_cons]
    rcases ih with hkept | ⟨v, hv⟩
    · simp only [hkept, memory_get?_set]
      by_cases hc : a = c.1
      · exact .inr ⟨c.2, fun m => if_pos hc⟩
      · exact .inl fun m => if_neg hc
    · exact .inr ⟨v, fun m => hv _⟩

/-- R95: two successful completions with the same writes leave alike every OBUF byte that they write. -/
theorem commitResult_obufByte_agree (s1 s2 : State) (res : Word) (ws : List Host.Cell) (k : Nat) :
    ((s1.commitResult res ws).obufByte k = s1.obufByte k ∧
        (s2.commitResult res ws).obufByte k = s2.obufByte k) ∨
      (s1.commitResult res ws).obufByte k = (s2.commitResult res ws).obufByte k := by
  simp only [State.obufByte, commitResult_obuf, commitResult_epoch]
  rcases memory_get?_setAll_kept_or_const ws k with hkept | ⟨v, hv⟩
  · exact .inl ⟨by rw [hkept], by rw [hkept]⟩
  · exact .inr (by rw [hv, hv])

/-! ### The wait loop -/

/-- R100: a turn of the wait loop answers STATUS, and the loop stays at the head while BUSY is 1. -/
theorem hostTurn_poll {s : State} {rest : List Input} (hi : s.inputs = .pollBusy :: rest) :
    s.hostTurn = (s.elapse.withInputs (if s.busy then s.inputs else rest)).withResponse
      { data := s.statusWord, error := false } := by
  have hread : s.memRead pollAccess.width pollAccess.offset =
      { data := s.statusWord, error := false } := memRead_csrOffset s .status
  have hdir : pollAccess.dir = .read := rfl
  simp only [State.hostTurn, hi, State.takeInput, elapse_busy, elapse_inputs,
    hostAccess_of_read _ hdir, memRead_elapse_withInputs, hread]

/-! ### Test records (R101) -/

theorem hexValue_hexDigit {d : Nat} (h : d < 16) : hexValue (hexDigit d) = some d := by
  have hall : ∀ d : Fin 16, hexValue (hexDigit d.val) = some d.val := by decide
  exact hall ⟨d, h⟩

theorem length_hexDigits (n v : Nat) : (hexDigits n v).length = n := by
  induction n generalizing v with
  | zero => rfl
  | succ n ih => simp [hexDigits, ih]

/-- Digits are read from the left, each field going on from the number that the one before it gave. -/
theorem readHex_append (as bs : List Char) (acc : Nat) :
    readHex acc (as ++ bs) = (readHex acc as).bind (fun a => readHex a bs) := by
  induction as generalizing acc with
  | nil => rfl
  | cons c rest ih =>
    simp only [List.cons_append, readHex]
    cases hexValue c with
    | none => rfl
    | some d => exact ih _

theorem readHex_singleton {acc d : Nat} (h : d < 16) : readHex acc [hexDigit d] = some (16 * acc + d) := by
  simp only [readHex, hexValue_hexDigit h]

/-- The digits of a number that has at most `n` of them read back as that number. -/
theorem readHex_hexDigits {n v : Nat} (h : v < 16 ^ n) : readHex 0 (hexDigits n v) = some v := by
  induction n generalizing v with
  | zero =>
    have hv : v = 0 := by simpa using h
    rw [hv]
    rfl
  | succ n ih =>
    have hdiv : v / 16 < 16 ^ n := by
      rw [Nat.div_lt_iff_lt_mul (by decide), ← Nat.pow_succ]
      exact h
    rw [hexDigits, readHex_append, ih hdiv, Option.bind_some,
      readHex_singleton (Nat.mod_lt v (by decide)), Nat.div_add_mod]

/-- R101: the offset and data fields of a record read back. -/
theorem readFields_hexDigits (offset : Offset) (data : Word) :
    readFields (hexDigits 5 offset.toNat ++ ' ' :: hexDigits 8 data.toNat) = some (offset, data) := by
  have hoff : readHex 0 (hexDigits 5 offset.toNat) = some offset.toNat :=
    readHex_hexDigits (Nat.lt_trans offset.isLt (by decide))
  have hdata : readHex 0 (hexDigits 8 data.toNat) = some data.toNat := readHex_hexDigits data.isLt
  have hl : (hexDigits 5 offset.toNat).length = 5 := length_hexDigits 5 _
  generalize hexDigits 5 offset.toNat = os at hoff hl
  have hshape : (os ++ ' ' :: hexDigits 8 data.toNat).length = 14 ∧
      (os ++ ' ' :: hexDigits 8 data.toNat)[5]? = some ' ' := by
    simp [hl, length_hexDigits]
  have htake : (os ++ ' ' :: hexDigits 8 data.toNat).take 5 = os := List.take_left' hl
  have hdrop : (os ++ ' ' :: hexDigits 8 data.toNat).drop 6 = hexDigits 8 data.toNat := by
    rw [← List.drop_drop (i := 1) (j := 5), List.drop_left' hl]
    rfl
  simp only [readFields, hshape, and_self, if_true, htake, hdrop, hoff, hdata, offset.isLt,
    BitVec.ofNat_toNat, BitVec.setWidth_eq]

theorem dirOfLetter_letter (dir : Dir) : dirOfLetter dir.letter = some dir := by
  cases dir <;> rfl

end Sys2Proof.Machine

open Sys2Proof Sys2Proof.Machine

/-- Settles O2: each word is the encoding of its command, and the illegal words are those that name
none. -/
theorem onlyTheCommandWordSelectsACommand : Obligations.OnlyTheCommandWordSelectsACommand := by
  intro w
  refine ⟨decode_eq_command_iff w .encode, decode_eq_command_iff w .decode,
    decode_eq_command_iff w .encSize, decode_eq_command_iff w .decSize,
    decode_eq_command_iff w .lutFwd, decode_eq_command_iff w .lutRev, ?_⟩
  rw [exists_decode_eq_illegal_iff, exists_decode_eq_command_iff]
  omega

/-- Settles O4: the legal words by their fields, the start from the CMD write, and the completion from
`runCommand_of_illegal`. -/
theorem illegalWordsStartAndCompleteWithError : Obligations.IllegalWordsStartAndCompleteWithError := by
  refine ⟨fun w => (exists_decode_eq_command_iff w).trans (legal_range_iff_fields w),
    fun s w hb _ => ?_, fun s p hc hill => ⟨_, ?_, takeError_rejects s .illegalCommand p.cmdword⟩⟩
  · rw [memWrite_cmd_idle hb]
    exact ⟨_, startCommand_pending s w, rfl, rfl⟩
  · exact (step_completing s p hc).trans (runCommand_of_illegal hill s)

/-- Settles O7: a completion runs on a pending command, so it never faults, and a host turn always
answers. -/
theorem everyStepAnswersNext : Obligations.EveryStepAnswersNext := by
  intro s
  rcases step_cases s with ⟨p, hc, e⟩ | ⟨-, e⟩
  · rcases runCommand_cases p s with ⟨i, -, e'⟩ | ⟨-, e'⟩
    · exact ⟨_, e.trans (e'.trans (exec_some i s p hc.latched))⟩
    · exact ⟨_, e.trans e'⟩
  · exact ⟨_, e⟩

/-- Settles O20: an idle block starts the command and a busy one drops the write. -/
theorem cmdWriteStartsACommand : Obligations.CmdWriteStartsACommand := by
  refine fun s w => ⟨fun hb => ?_,
    fun hb => (memWrite_csrOffset s .cmd w).trans (unlessBusy_of_busy hb _)⟩
  exact ⟨s.startCommand w, _, memWrite_cmd_idle hb w, startCommand_pending s w, rfl, rfl, rfl, rfl, rfl,
    rfl, rfl, rfl, rfl, rfl, rfl, rfl, rfl, rfl, rfl, rfl, rfl, rfl⟩

/-- Settles O47: a command that answers did so by the completion of the latched one. -/
theorem commandsKeepTheirFrame : Obligations.CommandsKeepTheirFrame := by
  intro i s t h
  obtain ⟨p, -, rfl⟩ := exec_next i s t h
  exact completeWith_completes s _

/-- Settles O49: both completions have one outcome, a success with the same writes or the same error. -/
theorem outcomeDependsOnlyOnTheLatchAndIbuf : Obligations.OutcomeDependsOnlyOnTheLatchAndIbuf := by
  intro i s1 s2 t1 t2 p1 p2 hp1 hp2 h0 h1 hic hoc hib he1 he2
  rw [exec_some i s1 p1 hp1, resultOf_congr i h0 h1 hic hoc hib] at he1
  rw [exec_some i s2 p2 hp2] at he2
  cases he1
  cases he2
  cases hr : resultOf i s2 p2 with
  | ok res ws =>
    exact ⟨rfl, fun _ => rfl, fun hne => absurd rfl hne, commitResult_obufByte_agree s1 s2 res ws⟩
  | err code info =>
    exact ⟨rfl, fun he => absurd he (resultOf_err_ne i s2 p2 code info hr), fun _ => rfl,
      fun _ => .inl ⟨rfl, rfl⟩⟩

/-- Settles O57: the step is the host's turn, which `hostTurn_poll` gives. -/
theorem waitLoopPollsUntilIdle : Obligations.WaitLoopPollsUntilIdle := by
  intro s rest hi hc
  refine ⟨s.hostTurn, step_of_not_completing hc, ?_⟩
  rw [hostTurn_poll hi]
  exact ⟨rfl, fun hb => if_pos hb, fun hb => if_neg (by simp [hb]), rfl⟩

/-- Settles O59: the record is the letter, the width and the two fields, each of which reads back. -/
theorem recordsReadBack : Obligations.RecordsReadBack := by
  intro dir width offset data hw
  have hfields := readFields_hexDigits offset data
  have hdir := dirOfLetter_letter dir
  rcases hw with rfl | rfl
  · refine ⟨dir.letter :: '8' :: ' ' ::
      (hexDigits 5 offset.toNat ++ ' ' :: hexDigits 8 data.toNat), ?_, ?_⟩
    · simp [recordOf, Width.digits]
    · simp only [readRecord, hdir, hfields]
  · refine ⟨dir.letter :: '3' :: '2' :: ' ' ::
      (hexDigits 5 offset.toNat ++ ' ' :: hexDigits 8 data.toNat), ?_, ?_⟩
    · simp [recordOf, Width.digits]
    · simp only [readRecord, hdir, hfields]

/-- Settles O1: the fields of a command word are its OP code and RSV 0. -/
theorem decodeOfEncodeIsTheCommand : Obligations.DecodeOfEncodeIsTheCommand := by
  intro i
  obtain ⟨hrsv, hop, -, hwf⟩ := commandWord i
  refine ⟨hwf, ?_, decode_encode i⟩
  simp [CommandFields.wf, CommandFields.rsvZero, CommandFields.opDefined, hrsv, hop, opCode_range i]

/-- Settles O3: the command words are the encodings of their commands. -/
theorem opcodeMapWordsDecode : Obligations.OpcodeMapWordsDecode :=
  ⟨decode_encode .encode, decode_encode .decode, decode_encode .encSize, decode_encode .decSize,
    decode_encode .lutFwd, decode_encode .lutRev, by decide, by decide, by decide, by decide⟩

/-- Settles O5: the step at a completion runs the command of its word. -/
theorem stepRunsTheDecodedCommand : Obligations.StepRunsTheDecodedCommand :=
  fun s p _ hc hd _ => (step_completing s p hc).trans (runCommand_of_command hd s)

/-- Settles O58: each pseudo-instruction is written as its expansion. -/
theorem pseudoInstructionsExpand : Obligations.PseudoInstructionsExpand :=
  ⟨fun _ => rfl, fun _ => rfl, fun _ => rfl, rfl, rfl, fun _ _ => rfl, fun _ _ _ => rfl,
    fun _ _ _ => rfl, rfl⟩

end

section
/-!
The statements about the alphabet ROM: the reverse table undoes the forward one, and the two lookup
commands give the entries of the tables. The lemmas on the tables come first, then the outcome of each
lookup in its range and past it.
-/

namespace Sys2Proof.Machine

/-! ### The tables (R110 to R112) -/

/-- R110: the bytes of the ROM are the codes of the characters of the alphabet, in their order. -/
theorem toNat_fwd : ∀ i : Symbol,
    (fwd i).toNat = (("ybndrfg8ejkmcpqxot1uwisza345h769".toList)[i.toNat]?.map Char.toNat).get! := by
  decide

/-- R112: distinct indices have distinct characters, since REV gives the index back. -/
theorem fwd_injective : Function.Injective fwd := fun i j h => by
  rw [← entryIdx_rev_fwd i, h, entryIdx_rev_fwd]

/-- R110: every byte of the alphabet stands in the forward table. -/
theorem exists_fwd_of_mem_alphabet {b : Byte} (h : b ∈ alphabet) : ∃ i : Symbol, fwd i = b := by
  obtain ⟨n, hn, rfl⟩ := List.mem_iff_getElem.1 h
  have hlt : n < 2 ^ 5 := hn
  refine ⟨BitVec.ofNat 5 n, ?_⟩
  rw [fwd, BitVec.toNat_ofNat, Nat.mod_eq_of_lt hlt, List.getD_eq_getElem?_getD,
    List.getElem?_eq_getElem hn, Option.getD_some]

/-- R111, R113: every byte outside the alphabet has the INVALID entry. -/
theorem rev_of_forall_fwd_ne {b : Byte} (h : ∀ i : Symbol, fwd i ≠ b) : rev b = invalidEntry := by
  have hnone : alphabet.findIdx? (fun a => a == b) = none := by
    rw [List.findIdx?_eq_none_iff]
    intro a ha
    obtain ⟨i, rfl⟩ := exists_fwd_of_mem_alphabet ha
    simpa using h i
  rw [rev, hnone]

/-- R112: FWD undoes REV at a valid entry. -/
theorem fwd_entryIdx_rev {b : Byte} (h : entryInv (rev b) = false) : fwd (entryIdx (rev b)) = b := by
  by_cases hb : ∃ i : Symbol, fwd i = b
  · obtain ⟨i, rfl⟩ := hb
    rw [entryIdx_rev_fwd]
  · rw [rev_of_forall_fwd_ne (not_exists.1 hb)] at h
    cases h

/-- R112: every byte of the alphabet is a printable character other than the space. -/
theorem fwd_printable : ∀ i : Symbol, 0x21 ≤ (fwd i).toNat ∧ (fwd i).toNat ≤ 0x7E := by decide

/-! ### A completion without OBUF writes -/

/-- R95, R200: a successful completion leaves its value in RESULT. -/
theorem commitResult_succeeds (s : State) {res : Word} {n : Nat} (ws : List Host.Cell)
    (h : res.toNat = n) : Succeeds s (s.commitResult res ws) n :=
  ⟨commitResult_completes s res ws, rfl, rfl, h⟩

/-- R62: a successful completion with no OBUF writes leaves OBUF alone. -/
theorem commitResult_nil_obuf (s : State) (res : Word) :
    (∀ k, (s.commitResult res []).obufByte k = s.obufByte k) ∧ (s.commitResult res []).obuf = s.obuf :=
  ⟨fun _ => rfl, rfl⟩

/-! ### The outcomes of the lookups (R115, R116) -/

theorem lutFwdResult_of_gt {n : Nat} (h : 31 < n) : lutFwdResult n = .err .invalidArgument 3 := if_pos h

theorem lutRevResult_of_gt {n : Nat} (h : 255 < n) : lutRevResult n = .err .invalidArgument 3 := if_pos h

theorem lutFwdResult_of_le {n : Nat} (h : n ≤ 31) :
    lutFwdResult n = .ok (zext32 (fwd (BitVec.ofNat 5 n))) [] := if_neg (by omega)

theorem lutRevResult_of_le {n : Nat} (h : n ≤ 255) :
    lutRevResult n = .ok ((rev (BitVec.ofNat 8 n)).setWidth 32) [] := if_neg (by omega)

/-- R115: RESULT of LUT_FWD is the code of the alphabet's character. -/
theorem toNat_zext32_fwd {n : Nat} (h : n ≤ 31) :
    (zext32 (fwd (BitVec.ofNat 5 n))).toNat =
      (("ybndrfg8ejkmcpqxot1uwisza345h769".toList)[n]?.map Char.toNat).get! := by
  have hn : (BitVec.ofNat 5 n).toNat = n := by rw [BitVec.toNat_ofNat, Nat.mod_eq_of_lt (by omega)]
  rw [zext32, BitVec.toNat_setWidth_of_le (by decide), toNat_fwd, hn]

/-- R116: RESULT of LUT_REV at a byte of the alphabet is its index. -/
theorem toNat_setWidth_rev_of_eq {n : Nat} {i : Symbol} (h : (fwd i).toNat = n) :
    ((rev (BitVec.ofNat 8 n)).setWidth 32).toNat = i.toNat := by
  rw [← h, BitVec.ofNat_toNat, BitVec.setWidth_eq, rev_fwd, BitVec.toNat_setWidth_of_le (by decide),
    BitVec.toNat_setWidth_of_le (by decide)]

/-- R116: RESULT of LUT_REV at any other byte is the INVALID entry. -/
theorem toNat_setWidth_rev_of_ne {n : Nat} (hn : n ≤ 255) (h : ∀ i : Symbol, (fwd i).toNat ≠ n) :
    ((rev (BitVec.ofNat 8 n)).setWidth 32).toNat = 0x20 := by
  have hne : ∀ i : Symbol, fwd i ≠ BitVec.ofNat 8 n := fun i hi =>
    h i (by rw [hi, BitVec.toNat_ofNat, Nat.mod_eq_of_lt (by omega)])
  rw [rev_of_forall_fwd_ne hne]
  rfl

end Sys2Proof.Machine

open Sys2Proof Sys2Proof.Machine

/-- Settles O44: the index selects the outcome of the lookup, and the completion carries it out. -/
theorem lutFwdCompletes : Obligations.LutFwdCompletes := by
  refine ⟨decode_encode .lutFwd, fun s p hp => ⟨_, exec_some .lutFwd s p hp, fun h => ?_, fun h => ?_⟩⟩
  · rw [resultOf, lutFwdResult_of_gt h]
    exact takeError_rejects s .invalidArgument 3
  · rw [resultOf, lutFwdResult_of_le h, completeWith_ok]
    exact ⟨commitResult_succeeds s [] (toNat_zext32_fwd h), commitResult_nil_obuf s _⟩

/-- Settles O45: as for LUT_FWD; the entry is the index of the byte, or the INVALID entry of a byte
outside the alphabet. -/
theorem lutRevCompletes : Obligations.LutRevCompletes := by
  refine ⟨decode_encode .lutRev, fun s p hp => ⟨_, exec_some .lutRev s p hp, fun h => ?_, fun h => ?_⟩⟩
  · rw [resultOf, lutRevResult_of_gt h]
    exact takeError_rejects s .invalidArgument 3
  · rw [resultOf, lutRevResult_of_le h, completeWith_ok]
    exact ⟨fun i hi => commitResult_succeeds s [] (toNat_setWidth_rev_of_eq hi),
      fun hne => commitResult_succeeds s [] (toNat_setWidth_rev_of_ne h hne), commitResult_nil_obuf s _⟩

/-- Settles O46: both directions of the inverse, and the range of the codes. -/
theorem reverseTableInvertsTheAlphabet : Obligations.ReverseTableInvertsTheAlphabet :=
  ⟨fun _ _ h => fwd_injective h, rev_fwd, fun _ h => rev_of_forall_fwd_ne h, fun _ h => fwd_entryIdx_rev h,
    fwd_printable⟩

end

section
/-!
The statements about ENCODE: its datapath against the stream rules, its completion, the value of a symbol,
and the cursor that its datapath shares with the decoder's. A step of the datapath sees two bytes, the one
under the cursor and the next; every row of the phase table takes five neighbouring bits of the two.
-/

namespace Sys2Proof.Machine

/-! ### The cursor (R134, R164) -/

/-- R134: the phase moves the byte cursor on when the next symbol starts in the next byte. -/
theorem phaseAdvance_mod (k : Nat) : 5 * k / 8 + phaseAdvance (k % 8) = 5 * (k + 1) / 8 := by
  have table : ∀ r : Fin 8, 5 * r.val / 8 + phaseAdvance r.val = 5 * (r.val + 1) / 8 := by decide
  have hrow := table ⟨k % 8, Nat.mod_lt k (by decide)⟩
  dsimp only at hrow
  have hhere : 5 * k / 8 = 5 * (k / 8) + 5 * (k % 8) / 8 := by omega
  have hnext : 5 * (k + 1) / 8 = 5 * (k / 8) + 5 * (k % 8 + 1) / 8 := by omega
  rw [hhere, hnext, Nat.add_assoc, hrow]

/-- R134: symbol `k` starts in byte `5k div 8`, the byte that holds stream bit `5k`. -/
theorem cursorAt_eq (k : Nat) : cursorAt k = { k := k, c := 5 * k / 8, partialByte := 0 } := by
  induction k with
  | zero => rfl
  | succ k ih => rw [cursorAt, ih, Cursor.next, Cursor.phase, phaseAdvance_mod]

@[simp] theorem cursorAt_k (k : Nat) : (cursorAt k).k = k := by rw [cursorAt_eq]

@[simp] theorem cursorAt_c (k : Nat) : (cursorAt k).c = 5 * k / 8 := by rw [cursorAt_eq]

@[simp] theorem cursorAt_phase (k : Nat) : (cursorAt k).phase = k % 8 := by rw [Cursor.phase, cursorAt_k]

/-- The column of R134 for the byte cursor within a group of eight symbols. -/
theorem cursorTable_getD {r : Nat} (h : r < 8) : [0, 0, 1, 1, 2, 3, 3, 4].getD r 0 = 5 * r / 8 := by
  have table : ∀ r : Fin 8, [0, 0, 1, 1, 2, 3, 3, 4].getD r.val 0 = 5 * r.val / 8 := by decide
  exact table ⟨r, h⟩

/-! ### The phase table (R134) -/

theorem getLsbD_0x1F (i : Nat) : (0x1F : Byte).getLsbD i = decide (i < 5) := by
  have hmask : (0x1F : Byte) = (BitVec.allOnes 5).setWidth 8 := by decide
  rw [hmask, BitVec.getLsbD_setWidth, BitVec.getLsbD_allOnes]
  by_cases h : i < 5
  · simp [h, show i < 8 by omega]
  · simp [h]

/-- A row that reads the byte under the cursor only. -/
theorem shiftMask_eq_window (m m1 : Byte) (s : Nat) :
    (m >>> s) &&& 0x1F = ((m ++ m1).extractLsb' (8 + s) 5).setWidth 8 := by
  refine BitVec.eq_of_getLsbD_eq fun i hi => ?_
  simp only [BitVec.getLsbD_and, BitVec.getLsbD_ushiftRight, getLsbD_0x1F, BitVec.getLsbD_setWidth,
    BitVec.getLsbD_extractLsb', BitVec.getLsbD_append]
  have hin : ¬ 8 + s + i < 8 := by omega
  have hbit : 8 + s + i - 8 = s + i := by omega
  simp [hi, hin, hbit, Bool.and_comm]

/-- A row that reads the low `5 - s` bits of the byte under the cursor and the top `s` of the next. -/
theorem maskShift_or_spill_eq_window (m m1 : Byte) {s : Nat} (hs : s ≤ 5) :
    ((m &&& (BitVec.allOnes (5 - s)).setWidth 8) <<< s) ||| (m1 >>> (8 - s)) =
      ((m ++ m1).extractLsb' (8 - s) 5).setWidth 8 := by
  refine BitVec.eq_of_getLsbD_eq fun i hi => ?_
  simp only [BitVec.getLsbD_or, BitVec.getLsbD_shiftLeft, BitVec.getLsbD_and,
    BitVec.getLsbD_ushiftRight, BitVec.getLsbD_setWidth, BitVec.getLsbD_allOnes,
    BitVec.getLsbD_extractLsb', BitVec.getLsbD_append]
  by_cases hspill : i < s
  · have hnext : 8 - s + i < 8 := by omega
    have hlow : i < 5 := by omega
    simp [hi, hspill, hnext, hlow]
  · have hhere : ¬ 8 - s + i < 8 := by omega
    have hbit : 8 - s + i - 8 = i - s := by omega
    have hout : m1.getLsbD (8 - s + i) = false := BitVec.getLsbD_of_ge m1 _ (by omega)
    have hmask : i - s < 5 - s ↔ i < 5 := by omega
    have hbyte : i - s < 8 := by omega
    simp [hi, hspill, hhere, hbit, hout, hmask, hbyte, Bool.and_comm]

/-- R134: in phase `p` the symbol starts at bit `5p mod 8` of the byte under the cursor. Each row of the
table reads the five bits from there on. -/
theorem encodePhase_eq_window {p : Nat} (hp : p < 8) (m m1 : Byte) :
    encodePhase p m m1 = ((m ++ m1).extractLsb' (11 - 5 * p % 8) 5).setWidth 8 := by
  match p, hp with
  | 0, _ => exact shiftMask_eq_window m m1 3
  | 1, _ => exact maskShift_or_spill_eq_window m m1 (s := 2) (by decide)
  | 2, _ => exact shiftMask_eq_window m m1 1
  | 3, _ => exact maskShift_or_spill_eq_window m m1 (s := 4) (by decide)
  | 4, _ => exact maskShift_or_spill_eq_window m m1 (s := 1) (by decide)
  | 5, _ => exact shiftMask_eq_window m m1 2
  | 6, _ => exact maskShift_or_spill_eq_window m m1 (s := 3) (by decide)
  | 7, _ => exact shiftMask_eq_window m m1 0

/-! ### The stream bits of a byte sequence (R11, R131) -/

/-- R11: the stream bits of two neighbouring bytes, most significant first. -/
theorem streamBit_eq_window (bytes : Nat → Byte) (c : Nat) {d : Nat} (hd : d < 16) :
    streamBit bytes (8 * c + d) = (bytes c ++ bytes (c + 1)).getLsbD (15 - d) := by
  rw [streamBit, BitVec.getLsbD_append]
  by_cases h : d < 8
  · have hbyte : (8 * c + d) / 8 = c := by omega
    have hbit : 7 - (8 * c + d) % 8 = 15 - d - 8 := by omega
    rw [if_neg (by omega), hbyte, hbit]
  · have hbyte : (8 * c + d) / 8 = c + 1 := by omega
    have hbit : 7 - (8 * c + d) % 8 = 15 - d := by omega
    rw [if_pos (by omega), hbyte, hbit]

/-- R132: five stream bits from `5k` on, read from the byte that holds bit `5k` and the next. -/
theorem packBits_streamBit_eq_window (bytes : Nat → Byte) (k : Nat) :
    packBits 5 (fun j => streamBit bytes (5 * k + j)) =
      (bytes (5 * k / 8) ++ bytes (5 * k / 8 + 1)).extractLsb' (11 - 5 * k % 8) 5 := by
  refine BitVec.eq_of_getLsbD_eq fun i hi => ?_
  have hpos : 5 * k + (5 - 1 - i) = 8 * (5 * k / 8) + (5 * k % 8 + (4 - i)) := by omega
  have hbit : 15 - (5 * k % 8 + (4 - i)) = 11 - 5 * k % 8 + i := by omega
  rw [packBits_getLsbD, BitVec.getLsbD_extractLsb', hpos, streamBit_eq_window bytes _ (by omega), hbit]

/-- R134: the mask of a byte keeps its `n` most significant bits. -/
theorem getLsbD_keepMask {n b : Nat} (hb : b < 8) :
    ((0xFF : Byte) <<< (8 - n)).getLsbD b = decide (8 - n ≤ b) := by
  have hones : (0xFF : Byte) = BitVec.allOnes 8 := rfl
  have hbyte : b - (8 - n) < 8 := by omega
  rw [hones, BitVec.getLsbD_shiftLeft, BitVec.getLsbD_allOnes, decide_eq_true hb,
    decide_eq_true hbyte, Bool.true_and, Bool.and_true, ← decide_not]
  exact decide_eq_decide.2 Nat.not_lt

/-- R131, R134: the stream bits of the masked input bytes are the effective input bits. -/
theorem streamBit_maskedByte (ib : Nat → Byte) (sb inlen i : Nat) :
    streamBit (maskedByte ib sb inlen) i = inputBit ib sb inlen i := by
  have hkeep : 8 - keepBits sb (i / 8) ≤ 7 - i % 8 ↔ i < sb := by unfold keepBits; omega
  rw [streamBit, maskedByte, BitVec.getLsbD_and, getLsbD_keepMask (by omega), inputBit, streamBit]
  simp only [hkeep]
  by_cases hlen : i / 8 < inlen <;> by_cases hsb : i < sb <;> simp [hlen, hsb]

/-! ### The encoder datapath -/

/-- R134, R137: a step of the datapath at the start of symbol `k` gives that symbol's value. -/
theorem encodePhase_cursorAt (ib : Nat → Byte) (sb inlen k : Nat) :
    encodePhase (cursorAt k).phase (maskedByte ib sb inlen (cursorAt k).c)
        (maskedByte ib sb inlen ((cursorAt k).c + 1)) =
      (symbolAt ib sb inlen k).setWidth 8 := by
  have hphase : 5 * (k % 8) % 8 = 5 * k % 8 := by omega
  rw [cursorAt_phase, cursorAt_c, encodePhase_eq_window (Nat.mod_lt k (by decide)), hphase,
    ← packBits_streamBit_eq_window]
  simp only [streamBit_maskedByte, symbolAt]

/-- R134: the values of `n` steps from the cursor at the start of symbol `k`. -/
theorem encodeValues_cursorAt (ib : Nat → Byte) (sb inlen n k : Nat) :
    encodeValues (maskedByte ib sb inlen) n (cursorAt k) =
      (List.range' k n).map (fun j => (symbolAt ib sb inlen j).setWidth 8) := by
  induction n generalizing k with
  | zero => rfl
  | succ n ih =>
    rw [encodeValues_succ, encodePhase_cursorAt, List.range'_succ, List.map_cons, ← ih (k + 1)]
    rfl

/-- R137: the datapath gives the symbol values in order. -/
theorem encodeValues_start (ib : Nat → Byte) (sb inlen n : Nat) :
    encodeValues (maskedByte ib sb inlen) n Cursor.start =
      (List.range n).map (fun k => (symbolAt ib sb inlen k).setWidth 8) := by
  rw [List.range_eq_range']
  exact encodeValues_cursorAt ib sb inlen n 0

/-- R134, R137: the datapath outputs the alphabet characters of the symbols in order. -/
theorem encodeDatapath_start (ib : Nat → Byte) (sb inlen n : Nat) :
    encodeDatapath (maskedByte ib sb inlen) n Cursor.start =
      (List.range n).map (fun k => fwd (symbolAt ib sb inlen k)) := by
  simp only [encodeDatapath_eq, encodeValues_start, List.map_map, Function.comp_def,
    BitVec.setWidth_setWidth_of_le _ (show 5 ≤ 8 by decide), BitVec.setWidth_eq]

/-! ### The value of a symbol (R132) -/

/-- R11: the first bit of a packed field has the highest weight. -/
theorem toNat_packBits_succ (w : Nat) (f : Nat → Bool) :
    (packBits (w + 1) f).toNat = (f 0).toNat * 2 ^ w + (packBits w (fun j => f (j + 1))).toNat := by
  rw [packBits, BitVec.toNat_cons', Nat.shiftLeft_eq]

/-- R131: the effective input bit as a number. -/
theorem toNat_inputBit (ib : Nat → Byte) (sb inlen i : Nat) :
    (inputBit ib sb inlen i).toNat =
      if i < sb ∧ i / 8 < inlen then (ib (i / 8)).toNat / 2 ^ (7 - i % 8) % 2 else 0 := by
  rw [inputBit]
  split
  · exact Nat.toNat_testBit _ _
  · rfl

end Sys2Proof.Machine

open Sys2Proof Sys2Proof.Machine

/-- Settles O52: the values are those of the steps from symbol 0 on, and the outputs are their
characters, which the writes of ENCODE number from 0. -/
theorem encoderDatapathAgreesWithTheStream : Obligations.EncoderDatapathAgreesWithTheStream := by
  intro ib sb inlen n
  refine ⟨encodeValues_start ib sb inlen n, ?_⟩
  rw [encodeDatapath_start, encodeWrites, List.map_prod_left_eq_zip]

/-- Settles O38: the range checks select the outcome of ENCODE, and the completion carries it out. The
count of symbols, (ARG0 + 4) div 5, fits RESULT. -/
theorem encodeCompletes : Obligations.EncodeCompletes := by
  refine ⟨decode_encode .encode, fun s p hp =>
    ⟨_, exec_some .encode s p hp, fun hin => ?_, fun hin hout => ?_, fun hin hout => ?_⟩⟩
  · rw [resultOf, encodeResult_inputRange _ _ _ _ _ hin]
    exact takeError_rejects s .invalidArgument 1
  · rw [resultOf, encodeResult_outputRange _ _ _ _ _ hin hout]
    exact takeError_rejects s .invalidArgument 2
  · rw [resultOf, encodeResult_ok _ _ _ _ _ hin hout, completeWith_ok]
    have hfits : encSize p.arg0.toNat < 2 ^ 32 := by
      have harg := p.arg0.isLt
      rw [encSize]
      omega
    exact ⟨commitResult_succeeds s _ (toNat_ofNat_word _ hfits), commitResult_writesExactly s _ _ _⟩

/-- Settles O39: the five bits are packed with the first one the most significant. -/
theorem symbolIsItsFiveStreamBits : Obligations.SymbolIsItsFiveStreamBits := by
  intro ib sb inlen k e he
  have hbit : ∀ i, (inputBit ib sb inlen i).toNat = e i := fun i =>
    (toNat_inputBit ib sb inlen i).trans (he i).symm
  simp only [symbolAt, toNat_packBits_succ, hbit, Nat.add_zero, Nat.zero_add, Nat.reduceAdd]
  simp only [packBits, BitVec.toNat_zero]
  omega

/-- Settles O51: byte `5k div 8` is that of the group of eight symbols and the column's entry. -/
theorem cursorHasItsClosedForm : Obligations.CursorHasItsClosedForm := by
  intro k
  refine ⟨cursorAt_k k, cursorAt_phase k, ?_⟩
  rw [cursorAt_c, cursorTable_getD (Nat.mod_lt k (by decide))]
  omega

end

section
/-!
The statements about DECODE: its completion, the value of an output byte, its datapath against the stream
rules, the bound on the bytes that the datapath writes, and the two laws by which DECODE and ENCODE undo
each other. Bytes are compared by their stream bits (R11): a stream bit of the decoded bytes is D(i), and a
step of the datapath ORs the five stream bits of one symbol into the scratch.
-/

namespace Sys2Proof.Machine

/-! ### The sizes (R162, R190) -/

/-- R162: the jump table gives `ceil(5s / 8)`. -/
theorem decSize_eq (s : Nat) : decSize s = (5 * s + 7) / 8 := by
  rw [decSize, jumpTable_getD _ (Nat.mod_lt s (by decide))]
  omega

/-- R192: `5s` bits make exactly `s` symbols. -/
theorem encSize_mul (s : Nat) : encSize (5 * s) = s := by
  rw [encSize]
  omega

/-- A decoding has no more bytes than symbols, so a buffer that holds the symbols holds the bytes. -/
theorem decSize_le (s : Nat) : decSize s ≤ s := by
  rw [decSize_eq]
  omega

/-! ### Bytes and their stream bits (R11) -/

/-- R11: place `j` of byte `b` is stream bit `8b + j`. -/
theorem streamBit_mul_add (bytes : Nat → Byte) (b : Nat) {j : Nat} (hj : j < 8) :
    streamBit bytes (8 * b + j) = (bytes b).getLsbD (7 - j) := by
  have hbyte : (8 * b + j) / 8 = b := by omega
  have hbit : (8 * b + j) % 8 = j := by omega
  rw [streamBit, hbyte, hbit]

/-- R11: a byte is given by its eight stream bits. -/
theorem byte_eq_of_streamBit_eq {f g : Nat → Byte} {b : Nat}
    (h : ∀ j, j < 8 → streamBit f (8 * b + j) = streamBit g (8 * b + j)) : f b = g b := by
  refine BitVec.eq_of_getLsbD_eq fun i hi => ?_
  have hplace : i = 7 - (7 - i) := by omega
  have hj : 7 - i < 8 := by omega
  rw [hplace, ← streamBit_mul_add f b hj, ← streamBit_mul_add g b hj]
  exact h _ hj

/-- R11: the stream bits of packed bytes are the bits that were packed. -/
theorem streamBit_packBits (f : Nat → Bool) (i : Nat) :
    streamBit (fun b => packBits 8 (fun j => f (8 * b + j))) i = f i := by
  rw [streamBit, show 7 - i % 8 = 8 - 1 - i % 8 from rfl,
    packBits_getLsbD_msb _ _ _ (Nat.mod_lt i (by decide)), Nat.div_add_mod]

/-- R163: the stream bits of the decoded bytes are the bits D(i). -/
theorem streamBit_outByte (ib : Nat → Byte) (count i : Nat) :
    streamBit (outByte ib count) i = outputBit ib count i :=
  streamBit_packBits (outputBit ib count) i

/-- R131: when the input holds all `sb` bits, they are the effective ones and the rest are 0. -/
theorem inputBit_of_le {sb inlen : Nat} (h : sb ≤ 8 * inlen) (ib : Nat → Byte) (i : Nat) :
    inputBit ib sb inlen i = (decide (i < sb) && streamBit ib i) := by
  rw [inputBit]
  by_cases hi : i < sb
  · have hlen : i / 8 < inlen := by omega
    simp [hi, hlen]
  · simp [hi]

/-! ### The symbols behind the output bits (R161, R163) -/

/-- R163: past the last symbol the output bits are 0. -/
theorem outputBit_of_ge {count i : Nat} (h : 5 * count ≤ i) (ib : Nat → Byte) :
    outputBit ib count i = false := if_neg (by omega)

/-- R163: below the count, place `j` of symbol `k` is output bit `5k + j`. -/
theorem outputBit_mul_add (ib : Nat → Byte) {count k j : Nat} (hk : k < count) (hj : j < 5) :
    outputBit ib count (5 * k + j) = (symbolValue ib k).getLsbD (4 - j) := by
  have hsym : (5 * k + j) / 5 = k := by omega
  have hbit : (5 * k + j) % 5 = j := by omega
  rw [outputBit, if_pos (by omega), hsym, hbit]

/-- R132, R163: packing five output bits gives the symbol value back. -/
theorem packBits_outputBit (ib : Nat → Byte) {count k : Nat} (hk : k < count) :
    packBits 5 (fun j => outputBit ib count (5 * k + j)) = symbolValue ib k := by
  refine BitVec.eq_of_getLsbD_eq fun i hi => ?_
  have hplace : 4 - (5 - 1 - i) = i := by omega
  rw [packBits_getLsbD, decide_eq_true hi, Bool.true_and, outputBit_mul_add ib hk (by omega), hplace]

/-- R163: one more symbol adds its five bits to the output. -/
theorem outputBit_succ (ib : Nat → Byte) (k i : Nat) :
    outputBit ib (k + 1) i =
      (outputBit ib k i ||
        (decide (5 * k ≤ i ∧ i < 5 * k + 5) && (symbolValue ib k).getLsbD (4 - (i - 5 * k)))) := by
  by_cases hbelow : i < 5 * k
  · have hout : ¬ 5 * k ≤ i := by omega
    have hnext : i < 5 * (k + 1) := by omega
    simp [outputBit, hbelow, hnext, hout]
  · rw [outputBit_of_ge (Nat.not_lt.1 hbelow), Bool.false_or]
    obtain ⟨j, rfl⟩ := Nat.exists_eq_add_of_le (Nat.not_lt.1 hbelow)
    by_cases hj : j < 5
    · rw [outputBit_mul_add ib (Nat.lt_succ_self k) hj]
      simp [hj]
    · rw [outputBit_of_ge (by omega)]
      simp [hj]

/-- R163: the output bit as a number. -/
theorem toNat_outputBit (ib : Nat → Byte) (count i : Nat) :
    (outputBit ib count i).toNat =
      if i < 5 * count then (entryIdx (rev (ib (i / 5)))).toNat / 2 ^ (4 - i % 5) % 2 else 0 := by
  rw [outputBit]
  split
  · exact Nat.toNat_testBit _ _
  · rfl

/-! ### The phase table (R164)

In phase `p` the symbol starts at place `5p mod 8` of the byte under the cursor. Up to place 3 it ends in
that byte and is shifted left; from place 4 on it is shifted right and the bits shifted out spill. -/

/-- R164: the bits that a phase puts into the byte under the cursor. -/
theorem getLsbD_decodePhaseHere {p i : Nat} (hp : p < 8) (hi : i < 8) (v : Byte) :
    (decodePhaseHere p v).getLsbD i =
      (decide (3 ≤ i + 5 * p % 8) && v.getLsbD (i + 5 * p % 8 - 3)) := by
  have left : ∀ o, o ≤ 3 →
      (v <<< (3 - o)).getLsbD i = (decide (3 ≤ i + o) && v.getLsbD (i + o - 3)) := fun o ho => by
    have hin : i < 3 - o ↔ ¬ 3 ≤ i + o := by omega
    have hbit : i - (3 - o) = i + o - 3 := by omega
    rw [BitVec.getLsbD_shiftLeft, decide_eq_true hi, Bool.true_and, hbit, decide_eq_decide.2 hin, decide_not,
      Bool.not_not]
  have right : ∀ s, (v >>> s).getLsbD i = (decide (3 ≤ i + (s + 3)) && v.getLsbD (i + (s + 3) - 3)) :=
    fun s => by
      have hin : 3 ≤ i + (s + 3) := by omega
      have hbit : i + (s + 3) - 3 = s + i := by omega
      simp [hin, hbit]
  match p, hp with
  | 0, _ => exact left 0 (by decide)
  | 1, _ => exact right 2
  | 2, _ => exact left 2 (by decide)
  | 3, _ => exact right 4
  | 4, _ => exact right 1
  | 5, _ => exact left 1 (by decide)
  | 6, _ => exact right 3
  | 7, _ => exact right 0

/-- R164: the bits that a phase spills into the byte after the cursor. -/
theorem getLsbD_decodePhaseSpill {p i : Nat} (hp : p < 8) (hi : i < 8) (v : Byte) :
    ((decodePhaseSpill p v).getD 0).getLsbD i =
      (decide (11 ≤ i + 5 * p % 8) && v.getLsbD (i + 5 * p % 8 - 11)) := by
  have within : ∀ o, o ≤ 3 →
      (0 : Byte).getLsbD i = (decide (11 ≤ i + o) && v.getLsbD (i + o - 11)) := fun o ho => by
    have hout : ¬ 11 ≤ i + o := by omega
    simp [hout]
  have spill : ∀ s, s ≤ 5 → ((v &&& (BitVec.allOnes s).setWidth 8) <<< (8 - s)).getLsbD i =
      (decide (11 ≤ i + (s + 3)) && v.getLsbD (i + (s + 3) - 11)) := fun s hs => by
    by_cases hin : 11 ≤ i + (s + 3)
    · have hpad : ¬ i < 8 - s := by omega
      have hbit : i - (8 - s) = i + (s + 3) - 11 := by omega
      have hmask : i + (s + 3) - 11 < s := by omega
      have hbyte : i + (s + 3) - 11 < 8 := by omega
      simp [hi, hin, hpad, hbit, hmask, hbyte]
    · have hpad : i < 8 - s := by omega
      simp [hin, hpad]
  match p, hp with
  | 0, _ => exact within 0 (by decide)
  | 1, _ => exact spill 2 (by decide)
  | 2, _ => exact within 2 (by decide)
  | 3, _ => exact spill 4 (by decide)
  | 4, _ => exact spill 1 (by decide)
  | 5, _ => exact within 1 (by decide)
  | 6, _ => exact spill 3 (by decide)
  | 7, _ => exact within 3 (by decide)

/-- R164: only a symbol that crosses the end of its byte spills. -/
theorem place_of_decodePhaseSpill {p : Nat} (hp : p < 8) {v : Byte}
    (h : (decodePhaseSpill p v).isSome = true) : 4 ≤ 5 * p % 8 := by
  match p, hp, h with
  | 0, _, h | 2, _, h | 5, _, h | 7, _, h => cases h
  | 1, _, _ | 3, _, _ | 4, _, _ | 6, _, _ => decide

/-! ### The decoder datapath -/

/-- R164: what a step ORs into scratch byte `b`. -/
def stepPart (q : Cursor) (v : Byte) (b : Nat) : Byte :=
  if b = q.c then decodePhaseHere q.phase v
  else if b = q.c + 1 then (decodePhaseSpill q.phase v).getD 0
  else 0

/-- R164: an OR into one byte of a scratch that holds `f b` at each index. -/
theorem orInto_map_range (len : Nat) (f : Nat → Byte) (c : Nat) (v : Byte) :
    orInto ((List.range len).map f) c v =
      (List.range len).map (fun b => f b ||| if b = c then v else 0) := by
  refine List.ext_getElem (by simp [orInto]) fun b _ _ => ?_
  by_cases hb : b = c
  · simp [orInto, hb]
  · simp [orInto, hb, Ne.symm hb]

/-- R164: a step on a scratch that holds `f b` at each index. Bytes past its end are not there to write. -/
theorem decodeStep_map_range (len : Nat) (f : Nat → Byte) (q : Cursor) (v : Byte) :
    decodeStep ((List.range len).map f) q v =
      (List.range len).map (fun b => f b ||| stepPart q v b) := by
  simp only [decodeStep, orInto_map_range, stepPart]
  cases hspill : decodePhaseSpill q.phase v with
  | none => simp
  | some w =>
    simp only [Option.getD_some]
    refine List.map_congr_left fun b _ => ?_
    by_cases hb : b = q.c <;> simp [hb]

/-- R8: a bit of a symbol value at the stream place `i`, when the symbol starts at place `n`. The bits of
the byte above the symbol are 0. -/
theorem getLsbD_symbol_at_place (v : Symbol) {n i x : Nat} {A : Prop} [Decidable A] (hA : A ↔ i < n + 5)
    (hx : A → x + i = n + 4) :
    (decide A && (v.setWidth 8).getLsbD x) =
      (decide (n ≤ i ∧ i < n + 5) && v.getLsbD (4 - (i - n))) := by
  by_cases h : A
  · have hplace := hx h
    by_cases hn : n ≤ i
    · have hbit : x = 4 - (i - n) := by omega
      have hbyte : x < 8 := by omega
      simp [h, hA.1 h, hn, ← hbit, hbyte]
    · have hout : v.getLsbD x = false := BitVec.getLsbD_of_ge v x (by omega)
      simp [hn, hout]
  · simp [h, mt hA.2 h]

/-- R164: a step at the start of symbol `k` ORs that symbol's bits at stream places `5k` to `5k + 4`. -/
theorem streamBit_stepPart (k : Nat) (v : Symbol) (i : Nat) :
    streamBit (stepPart (cursorAt k) (v.setWidth 8)) i =
      (decide (5 * k ≤ i ∧ i < 5 * k + 5) && v.getLsbD (4 - (i - 5 * k))) := by
  rw [streamBit, stepPart, cursorAt_c, cursorAt_phase]
  have hphase : k % 8 < 8 := Nat.mod_lt k (by decide)
  have hplace : 7 - i % 8 < 8 := by omega
  by_cases hhere : i / 8 = 5 * k / 8
  · rw [if_pos hhere, getLsbD_decodePhaseHere hphase hplace, Nat.mul_mod_mod]
    exact getLsbD_symbol_at_place v (by omega) (by omega)
  · rw [if_neg hhere]
    by_cases hnext : i / 8 = 5 * k / 8 + 1
    · rw [if_pos hnext, getLsbD_decodePhaseSpill hphase hplace, Nat.mul_mod_mod]
      exact getLsbD_symbol_at_place v (by omega) (by omega)
    · have hout : ¬ (5 * k ≤ i ∧ i < 5 * k + 5) := by omega
      rw [if_neg hnext, decide_eq_false hout, Bool.false_and]
      exact BitVec.getLsbD_zero

/-- R163, R164: a step adds the bits of symbol `k` to the decoded bytes of the symbols before it. -/
theorem decodeStep_outByte (ib : Nat → Byte) (len k : Nat) :
    decodeStep ((List.range len).map (outByte ib k)) (cursorAt k) ((symbolValue ib k).setWidth 8) =
      (List.range len).map (outByte ib (k + 1)) := by
  rw [decodeStep_map_range]
  refine List.map_congr_left fun b _ => ?_
  refine byte_eq_of_streamBit_eq (f := fun b => outByte ib k b ||| stepPart _ _ b) fun j _ => ?_
  rw [streamBit_outByte, outputBit_succ, ← streamBit_outByte, ← streamBit_stepPart]
  exact BitVec.getLsbD_or

/-- R166: `n` steps from the start of symbol `k` decode `n` more symbols. -/
theorem decodeDatapath_cursorAt (ib : Nat → Byte) (len n k : Nat) :
    decodeDatapath (fun j => (symbolValue ib j).setWidth 8) n (cursorAt k)
        ((List.range len).map (outByte ib k)) =
      (List.range len).map (outByte ib (k + n)) := by
  induction n generalizing k with
  | zero => rfl
  | succ n ih =>
    rw [decodeDatapath, cursorAt_k, decodeStep_outByte, ← Nat.succ_add_eq_add_succ k n]
    exact ih (k + 1)

/-- R165: the zero scratch is the decoding of no symbol. -/
theorem zeroScratch_eq (ib : Nat → Byte) (len : Nat) :
    zeroScratch len = (List.range len).map (outByte ib 0) := by
  have hzero : outByte ib 0 = fun _ => 0x00 := funext fun b =>
    byte_eq_of_streamBit_eq (g := fun _ => 0x00) fun j _ => by
      rw [streamBit_outByte, outputBit_of_ge (by omega)]
      exact BitVec.getLsbD_zero.symm
  rw [hzero, zeroScratch, List.map_const', List.length_range]

/-! ### DECODE and ENCODE undo each other (R168) -/

/-- R168: the symbols of the decoded bytes are the symbols that were decoded. -/
theorem symbolAt_of_outByte {ib ob : Nat → Byte} {count : Nat}
    (hob : ∀ b, b < decSize count → ob b = outByte ib count b) {k : Nat} (hk : k < count) :
    symbolAt ob (5 * count) (decSize count) k = symbolValue ib k := by
  rw [← packBits_outputBit ib hk]
  refine packBits_congr _ _ _ fun j hj => ?_
  have hbits : 5 * count ≤ 8 * decSize count := by rw [decSize_eq]; omega
  have hbit : 5 * k + j < 5 * count := by omega
  rw [inputBit_of_le hbits, decide_eq_true hbit, Bool.true_and, ← streamBit_outByte, streamBit, streamBit,
    hob _ (by omega)]

/-- R168: the output bits of the encoded symbols are the effective input bits. -/
theorem outputBit_of_symbolAt {ib jb : Nat → Byte} {count inlen : Nat}
    (hjb : ∀ k, k < count → jb k = fwd (symbolAt ib (5 * count) inlen k)) (i : Nat) :
    outputBit jb count i = inputBit ib (5 * count) inlen i := by
  by_cases hi : i < 5 * count
  · have hk : i / 5 < count := by omega
    have hsym : symbolValue jb (i / 5) = symbolAt ib (5 * count) inlen (i / 5) := by
      rw [symbolValue, hjb _ hk, entryIdx_rev_fwd]
    rw [outputBit, if_pos hi, hsym, symbolAt, show 4 - i % 5 = 5 - 1 - i % 5 from rfl,
      packBits_getLsbD_msb _ _ _ (Nat.mod_lt i (by decide)), Nat.div_add_mod]
  · rw [outputBit_of_ge (Nat.not_lt.1 hi), inputBit, if_neg (fun h => hi h.1)]

/-- R131: the effective input bits packed into bytes. -/
def effectiveByte (ib : Nat → Byte) (sb inlen b : Nat) : Byte :=
  packBits 8 (fun j => inputBit ib sb inlen (8 * b + j))

/-- R131: when the input holds all `sb` bits, the stream of the effective bytes is theirs, then zeros. -/
theorem streamBit_effectiveByte {sb inlen : Nat} (h : sb ≤ 8 * inlen) (ib : Nat → Byte) (i : Nat) :
    streamBit (effectiveByte ib sb inlen) i = (decide (i < sb) && streamBit ib i) :=
  (streamBit_packBits (inputBit ib sb inlen) i).trans (inputBit_of_le h ib i)

/-- R168: decoding the encoded symbols gives the effective bytes. -/
theorem outByte_of_symbolAt {ib jb : Nat → Byte} {count inlen : Nat}
    (hjb : ∀ k, k < count → jb k = fwd (symbolAt ib (5 * count) inlen k)) (b : Nat) :
    outByte jb count b = effectiveByte ib (5 * count) inlen b :=
  packBits_congr _ _ _ fun _ _ => outputBit_of_symbolAt hjb _

end Sys2Proof.Machine

open Sys2Proof Sys2Proof.Machine

/-- Settles O53: the scratch holds the decoded bytes of the symbols so far, from none to all. -/
theorem decoderDatapathAgreesWithTheStream : Obligations.DecoderDatapathAgreesWithTheStream := by
  intro ib count
  have h := decodeDatapath_cursorAt ib (decSize count) count 0
  rwa [← zeroScratch_eq, Nat.zero_add] at h

/-- Settles O55: the bytes of DECODE hold exactly the bits of the symbols, and FWD undoes REV at a valid
symbol. -/
theorem encodeInvertsDecode : Obligations.EncodeInvertsDecode := by
  intro icap ocap count ib ob hin hout hcount hbytes hvalid
  refine ⟨decodeResult_ok _ _ _ _ hin hbytes ((firstInvalid_eq_none ib count).2 hvalid), fun hob => ?_⟩
  rw [encodeResult_ok _ _ _ _ _ hout (by rwa [encSize_mul]), encSize_mul, encodeWrites]
  refine congrArg _ (List.map_congr_left fun k hk => ?_)
  have hk : k < count := List.mem_range.1 hk
  rw [symbolAt_of_outByte hob hk, symbolValue, fwd_entryIdx_rev (hvalid k hk)]

/-- Settles O56: the decoded bytes are the effective input bits packed into bytes. -/
theorem decodeInvertsEncode : Obligations.DecodeInvertsEncode := by
  intro icap ocap sb inlen ib jb h5 hbits hin hicap hocap
  obtain ⟨count, rfl⟩ := Nat.dvd_of_mod_eq_zero h5
  rw [Nat.mul_div_cancel_left count (by decide)] at hicap hocap ⊢
  refine ⟨effectiveByte ib (5 * count) inlen, ?_, fun hjb => ?_, fun b hb => ?_, fun _ j hj => ?_⟩
  · rw [encodeResult_ok _ _ _ _ _ hin (by rwa [encSize_mul]), encSize_mul, encodeWrites]
  · have hvalid : ∀ k, k < count → entryInv (rev (jb k)) = false := fun k hk => by
      rw [hjb k hk, entryInv_rev_fwd]
    rw [decodeResult_ok _ _ _ _ hicap (Nat.le_trans (decSize_le count) hocap)
      ((firstInvalid_eq_none jb count).2 hvalid), decodeWrites, decSize_eq]
    simp only [outByte_of_symbolAt hjb]
  · refine byte_eq_of_streamBit_eq fun j hj => ?_
    rw [streamBit_effectiveByte hbits, decide_eq_true (by omega), Bool.true_and]
  · rw [← streamBit_mul_add _ _ hj, ← streamBit_mul_add _ _ hj, streamBit_effectiveByte hbits]
    exact congrArg (· && _) (decide_eq_decide.2 (by omega))

/-- Settles O40: the range checks and the symbol scan select the outcome of DECODE, and the completion
carries it out. The count of bytes, at most ARG0, fits RESULT. -/
theorem decodeCompletes : Obligations.DecodeCompletes := by
  refine ⟨decode_encode .decode, fun s p hp => ⟨_, exec_some .decode s p hp, ?_⟩⟩
  rw [resultOf, ← decSize_eq]
  refine ⟨fun hin => ?_, fun hin hout => ?_, fun hin hout => ⟨fun k hk hinv hleast => ?_, fun hvalid => ?_⟩⟩
  · rw [decodeResult_inputRange _ _ _ _ hin]
    exact takeError_rejects s .invalidArgument 1
  · rw [decodeResult_outputRange _ _ _ _ hin hout]
    exact takeError_rejects s .invalidArgument 2
  · rw [decodeResult_invalid _ _ _ _ k hin hout ((firstInvalid_eq_some _ _ _).2 ⟨hk, hinv, hleast⟩)]
    exact takeError_rejects s .invalidSymbol _
  · rw [decodeResult_ok _ _ _ _ hin hout ((firstInvalid_eq_none _ _).2 hvalid), completeWith_ok]
    have hfits : decSize p.arg0.toNat < 2 ^ 32 := Nat.lt_of_le_of_lt (decSize_le _) p.arg0.isLt
    exact ⟨commitResult_succeeds s _ (toNat_ofNat_word _ hfits), commitResult_writesExactly s _ _ _⟩

/-- Settles O41: the eight bits are packed with the first one the most significant. -/
theorem outputByteIsItsEightStreamBits : Obligations.OutputByteIsItsEightStreamBits := by
  intro ib count b d hd
  have hbit : ∀ i, (outputBit ib count i).toNat = d i := fun i =>
    (toNat_outputBit ib count i).trans (hd i).symm
  simp only [outByte, toNat_packBits_succ, hbit, Nat.add_zero, Nat.zero_add, Nat.reduceAdd]
  simp only [packBits, BitVec.toNat_zero]
  omega

/-- Settles O54: symbol `k` ends at stream bit `5k + 4`, below the `5 * count` bits that the output holds;
when it spills, that bit is in the byte after the cursor. -/
theorem decoderDatapathStaysBelowItsLength : Obligations.DecoderDatapathStaysBelowItsLength := by
  intro count k hk
  rw [cursorAt_c, cursorAt_phase, decSize_eq]
  refine ⟨by omega, fun v hspill => ?_⟩
  have hplace := place_of_decodePhaseSpill (Nat.mod_lt k (by decide)) hspill
  rw [Nat.mul_mod_mod] at hplace
  omega

end

section
/-!
The statements about the sizing functions: the laws of `ceil(n / 5)` and `ceil(5s / 8)`, and the completion
of ENC_SIZE and DEC_SIZE with their exact values, which are at most the operand and so fit RESULT.
-/

namespace Sys2Proof.Machine

/-- R190: bits need no more symbols than there are bits. -/
theorem encSize_le (n : Nat) : encSize n ≤ n := by
  rw [encSize]
  omega

/-- R190: the symbols of `n` bits have room for all of them. -/
theorem le_mul_encSize (n : Nat) : n ≤ 5 * encSize n := by
  rw [encSize]
  omega

/-- R95: a command whose outcome is the number `n` and no OBUF writes succeeds with `n` in RESULT and leaves
OBUF alone. -/
theorem exec_of_resultOf_ok_nil {i : Instr} {s : State} {p : Pending} {n : Nat} (hp : s.pending = some p)
    (hres : resultOf i s p = .ok (BitVec.ofNat 32 n) []) (hfits : n < 2 ^ 32) :
    ∃ t, exec i s = .next t ∧ Succeeds s t n ∧ (∀ k, t.obufByte k = s.obufByte k) ∧ t.obuf = s.obuf := by
  refine ⟨_, exec_some i s p hp, ?_⟩
  rw [hres, completeWith_ok]
  exact ⟨commitResult_succeeds s [] (toNat_ofNat_word n hfits), commitResult_nil_obuf s _⟩

end Sys2Proof.Machine

open Sys2Proof Sys2Proof.Machine

/-- Settles O43: RESULT is the jump-table value, which is at most the operand. -/
theorem decSizeCompletes : Obligations.DecSizeCompletes := by
  refine ⟨decode_encode .decSize, fun s p hp => ?_⟩
  have hfits : decSize p.arg0.toNat < 2 ^ 32 := Nat.lt_of_le_of_lt (decSize_le _) p.arg0.isLt
  obtain ⟨t, hexec, hok, hobuf⟩ := exec_of_resultOf_ok_nil (i := .decSize) hp rfl hfits
  exact ⟨t, hexec, hok, hok.result.trans (decSize_eq _), hobuf⟩

/-- Settles O50: the symbols of `n` bits hold at least `n` bits, and `ceil(· / 8)` is monotone; at 24 bits
the five symbols hold a byte more than the three of the input. -/
theorem sizingLaws : Obligations.SizingLaws := by
  refine ⟨fun _ => rfl, decSize_eq, fun n => ?_, by decide, fun n hn => ?_, encSize_mul⟩
  · rw [decSize_eq]
    exact Nat.div_le_div_right (Nat.add_le_add_right (le_mul_encSize n) 7)
  · rcases hn with rfl | rfl | rfl <;> rfl

/-- Settles O42: RESULT is the number of symbols, which is at most the operand. -/
theorem encSizeCompletes : Obligations.EncSizeCompletes :=
  ⟨decode_encode .encSize, fun _ p hp =>
    exec_of_resultOf_ok_nil hp rfl (Nat.lt_of_le_of_lt (encSize_le _) p.arg0.isLt)⟩

end

section
/-!
The statements about exceptions: what changes INTEN, what a bus error leaves alone, and what a command that
completes with an error leaves alone. The lemmas say which accesses reach INTEN, what an access that errs
does, and which outcome a completion with an error had.
-/

namespace Sys2Proof.Machine

/-! ### The accesses that reach INTEN (R22, R33) -/

theorem ibufTarget_ne_csr (i : Nat) (lanes : Option Lanes) (r : Csr) : ibufTarget i lanes ≠ .csr r := by
  cases lanes <;> nofun

theorem obufTarget_ne_csr (i : Nat) (lanes : Option Lanes) (r : Csr) : obufTarget i lanes ≠ .csr r := by
  cases lanes <;> nofun

/-- R60, R63: only a 32-bit access at a register's offset has that register as its target. -/
theorem csrAt_of_targetOf {s : State} {width : Width} {off : Offset} {r : Csr}
    (h : s.targetOf width off = .csr r) : width = .w32 ∧ csrAt off.toNat = r := by
  by_cases hcsr : off.toNat < 0x100
  · rw [targetOf_csr s width off hcsr] at h
    split at h
    next hword => exact ⟨hword.1, Target.csr.inj h⟩
    next => cases h
  · by_cases hibuf : 0x10000 ≤ off.toNat ∧ off.toNat < 0x20000
    · rw [targetOf_ibuf s width off hibuf.1 hibuf.2] at h
      exact absurd h (ibufTarget_ne_csr _ _ r)
    · by_cases hobuf : 0x20000 ≤ off.toNat ∧ off.toNat < 0x30000
      · rw [targetOf_obuf s width off hobuf.1 hobuf.2] at h
        exact absurd h (obufTarget_ne_csr _ _ r)
      · rw [targetOf_unmapped s width off (by omega)] at h
        cases h

/-- R22: INTEN stands at one offset only. -/
theorem eq_of_csrAt_inten {n : Nat} (h : csrAt n = .inten) : n = 0x018 := by
  unfold csrAt at h
  split at h <;> cases h
  rfl

/-- R22, R33, R63: only a 32-bit access at 0x018 reaches INTEN. -/
theorem offset_of_targetOf_inten {s : State} {width : Width} {off : Offset}
    (h : s.targetOf width off = .csr .inten) : width = .w32 ∧ off = 0x018 := by
  obtain ⟨hw, hr⟩ := csrAt_of_targetOf h
  exact ⟨hw, BitVec.eq_of_toNat_eq (eq_of_csrAt_inten hr)⟩

/-- R33: a host write keeps DONE_IE, or it is a write to INTEN that stores bit 0. -/
theorem memWrite_doneIe_cases (s : State) (width : Width) (off : Offset) (v : Word) :
    (s.memWrite width off v).doneIe = s.doneIe ∨
      (width = .w32 ∧ off = 0x018 ∧ (s.memWrite width off v).doneIe = v.getLsbD 0) := by
  rcases memWrite_cases s width off v with
    e | ⟨-, e⟩ | ⟨-, e⟩ | e | ⟨-, e⟩ | ⟨-, e⟩ | ⟨ht, e⟩ | ⟨-, ws, -, e⟩ <;> rw [e]
  · exact .inl rfl
  · exact .inl (dropWrite_doneIe s)
  · exact .inl (startCommand_doneIe s v)
  · exact .inl (writeStatus_doneIe s v)
  · exact .inl (withArg0_doneIe s v)
  · exact .inl (withArg1_doneIe s v)
  · obtain ⟨hw, hoff⟩ := offset_of_targetOf_inten ht
    exact .inr ⟨hw, hoff, writeInten_doneIe s v⟩
  · exact .inl (storeIbuf_doneIe s ws)

/-- R33, R72: a host access keeps DONE_IE, or it is a write to INTEN that stores bit 0. -/
theorem hostAccess_doneIe_cases (s : State) (a : Access) :
    (s.hostAccess a).doneIe = s.doneIe ∨
      (a.dir = .write ∧ a.width = .w32 ∧ a.offset = 0x018 ∧
        (s.hostAccess a).doneIe = a.data.getLsbD 0) := by
  rcases hostAccess_cases s a with ⟨-, e⟩ | ⟨hd, e⟩ <;> rw [e, withResponse_doneIe]
  · exact .inl rfl
  · exact (memWrite_doneIe_cases s a.width a.offset a.data).imp id fun h => ⟨hd, h⟩

/-- R207: a host turn that is no reset keeps DONE_IE, or takes a write to INTEN. -/
theorem hostTurn_doneIe_cases {s : State} (hr : s.inputs.head? ≠ some .reset) :
    s.hostTurn.doneIe = s.doneIe ∨
      ∃ a, s.inputs.head? = some (.access a) ∧ a.dir = .write ∧ a.width = .w32 ∧
        a.offset = 0x018 ∧ s.hostTurn.doneIe = a.data.getLsbD 0 := by
  rcases hostTurn_cases s with
    ⟨-, e⟩ | ⟨rest, hi, -⟩ | ⟨rest, -, e⟩ | ⟨rest, a, hi, e⟩ | ⟨rest, r, -, -, e⟩
  · exact .inl (by rw [e]; rfl)
  · simp [hi] at hr
  · exact .inl (by rw [e]; rfl)
  · rw [e]
    exact (hostAccess_doneIe_cases (s.elapse.withInputs rest) a).imp id
      fun h => ⟨a, by rw [hi]; rfl, h⟩
  · exact .inl (by rw [e, hostAccess_of_read _ rfl]; rfl)

/-! ### The accesses that err (R66) -/

/-- R66: a read that errs answers with data 0. -/
theorem memRead_of_error {s : State} {width : Width} {off : Offset}
    (h : (s.memRead width off).error = true) : s.memRead width off = errorResponse := by
  have ht : s.targetOf width off = .busError := Decidable.byContradiction fun hne =>
    Bool.false_ne_true (((memRead_error_iff s width off).2 hne).symm.trans h)
  simp only [State.memRead, ht]

/-- R66: a write that errs changes nothing. -/
theorem memWrite_of_error {s : State} {width : Width} {off : Offset}
    (h : (s.writeResponse width off).error = true) (v : Word) : s.memWrite width off v = s := by
  unfold State.memWrite
  cases ht : s.targetOf width off with
  | csr r => simp [State.writeResponse, ht, writeErrs] at h
  | ibuf i lanes => simp [State.writeResponse, ht, writeErrs] at h
  | obuf i lanes => rfl
  | busError => rfl

/-- R66, R204: an access that errs only records the error response. -/
theorem hostAccess_of_error {s : State} {a : Access} {r : Response}
    (hresp : (s.hostAccess a).response = some r) (herr : r.error = true) :
    s.hostAccess a = s.withResponse errorResponse := by
  rcases hostAccess_cases s a with ⟨-, e⟩ | ⟨-, e⟩ <;> rw [e] at hresp ⊢ <;> cases hresp
  · rw [memRead_of_error herr]
  · rw [memWrite_of_error herr]
    exact congrArg s.withResponse (congrArg (Response.mk 0) herr)

/-! ### The commands that complete with an error -/

/-- R190, R191: the sizing commands never fail. -/
theorem not_sizing_of_resultOf_err {i : Instr} {s : State} {p : Pending} {code : ErrCode} {info : Word}
    (h : resultOf i s p = .err code info) : i ≠ .encSize ∧ i ≠ .decSize := by
  constructor <;> rintro rfl <;> cases h

/-- R95, R205: a completion that leaves an error code had an error outcome. -/
theorem eq_err_of_completeWith_err_ne {s : State} {r : CommandResult}
    (h : (s.completeWith r).err ≠ .noError) : ∃ code info, r = .err code info := by
  cases r with
  | ok res ws => exact absurd (commitResult_err s res ws) h
  | err code info => exact ⟨code, info, rfl⟩

end Sys2Proof.Machine

open Sys2Proof Sys2Proof.Machine

/-- Settles O16: a completion keeps DONE_IE, and a host turn without a reset changes it by a write to INTEN
only. -/
theorem intenChangedOnlyByHostWrites : Obligations.IntenChangedOnlyByHostWrites := by
  intro s t hs hne
  by_cases hr : s.inputs.head? = some .reset
  · exact .inl hr
  · rcases step_cases s with ⟨p, hc, -⟩ | ⟨-, e⟩
    · exact absurd (completes_of_completing hc hs).doneIe hne
    · rw [e] at hs
      cases hs
      exact .inr ((hostTurn_doneIe_cases hr).resolve_left hne)

/-- Settles O36: the access only records the error response, on which irq does not depend. -/
theorem busErrorsChangeNothing : Obligations.BusErrorsChangeNothing := by
  rintro s a ⟨r, hresp, herr⟩
  rw [hostAccess_of_error hresp herr]
  exact ⟨rfl, rfl⟩

/-- Settles O48: the completion had an error outcome, which no sizing command has and which leaves RESULT
and OBUF alone. -/
theorem errorsLeaveNoOutput : Obligations.ErrorsLeaveNoOutput := by
  intro i s t h herr
  obtain ⟨p, -, rfl⟩ := exec_next i s t h
  obtain ⟨code, info, hres⟩ := eq_err_of_completeWith_err_ne herr
  obtain ⟨hencSize, hdecSize⟩ := not_sizing_of_resultOf_err hres
  have hrej := takeError_rejects s code info
  rw [hres, completeWith_err]
  exact ⟨hencSize, hdecSize, hrej.result, hrej.obuf, hrej.obufByte⟩

end

section
/-!
The statements about reset and about the end of a pending command: the state after reset is legal and has the
values of R241, a reset at the head of the inputs comes before a due completion, and without a reset a pending
command completes in the step after its delay, whatever word it was started with.
-/

namespace Sys2Proof.Machine

/-! ### Reset -/

/-- R6: any shortfall below 65536 leaves a legal capacity. -/
theorem capacity_legal (short : Fin 65536) : 1 ≤ 65536 - short.val ∧ 65536 - short.val ≤ 65536 := by
  omega

/-- R211: a completion is not due while the reset input is asserted. -/
theorem not_completing_of_reset {s : State} {rest : List Input} (hi : s.inputs = .reset :: rest)
    (p : Pending) : ¬ s.Completing p := fun hc => hc.noReset (by rw [hi]; rfl)

/-- R240: a reset at the head of the inputs is what the step does. -/
theorem step_reset {s : State} {rest : List Input} (hi : s.inputs = .reset :: rest) :
    step s = .next (s.elapse.withInputs rest).resetEvent := by
  rw [step_of_not_completing (not_completing_of_reset hi)]
  simp only [State.hostTurn, hi, State.takeInput]

/-- R41, R241: irq is low after a reset. -/
@[simp] theorem resetEvent_irq (s : State) : s.resetEvent.irq = false := rfl

/-! ### The completion of a waiting command -/

/-- R97, R252: a waiting command, its word legal or not, completes in the step after its delay. -/
theorem run_waits_completes {s : State} {p : Pending} (h : s.Waits p) :
    ∃ t u, Sys2Proof.core.run p.wait s = .next t ∧
      Sys2Proof.core.run (p.wait + 1) s = .next u ∧ Completes t u := by
  obtain ⟨t, hrun, hw, -⟩ := run_waits p.wait h (Nat.le_refl p.wait)
  rw [Nat.sub_self] at hw
  obtain ⟨u, hstep⟩ := everyStepAnswersNext t
  refine ⟨t, u, hrun, ?_, completes_of_completing (completing_of_waits hw rfl) hstep⟩
  rw [run_add p.wait 1 hrun, run_succ 0 t u hstep]
  rfl

end Sys2Proof.Machine

open Sys2Proof Sys2Proof.Machine

/-- Settles O11: a command pending in a legal state with no reset to come waits, and completes in the step
after its delay. -/
theorem pendingCommandCompletesAfterItsLatency :
    Obligations.PendingCommandCompletesAfterItsLatency := by
  intro s p hinv hr hp
  obtain ⟨_, u, -, hrun, hc⟩ := run_waits_completes ⟨hinv, hr, hp⟩
  exact ⟨u, hrun, hc.busy, hc.done, hc.latch⟩

/-- Settles O9: the capacities are legal whatever the implementation's constants are, the buffers are empty,
and no command is pending. -/
theorem resetMeetsInv : Obligations.ResetMeetsInv where
  ibufCapacity := capacity_legal Config.ibufShortfall
  obufCapacity := capacity_legal Config.obufShortfall
  ibufForm := memory_wf_nil _
  obufForm := memory_wf_nil _
  latchBusy := rfl
  busyFlags := fun hb => by cases hb
  errorDone := fun he => absurd rfl he
  successInfo := fun _ _ => rfl
  latched := fun p hp => by cases hp
  cursorStart := fun _ => rfl

/-- Settles O18: each value is a field of `State.reset` or a register read from one, and an empty buffer
holds no written byte. -/
theorem resetStateValues : Obligations.ResetStateValues :=
  ⟨rfl, rfl, rfl, rfl, rfl, rfl, rfl, rfl, rfl, rfl, rfl, rfl, rfl, rfl, rfl, rfl,
    memory_get?_nil, memory_get?_nil⟩

/-- Settles O19: the step is the reset event, whose laws give the values it sets and the capacities it
keeps. -/
theorem resetAbandonsTheCommand : Obligations.ResetAbandonsTheCommand := fun s rest hi =>
  let t := s.elapse.withInputs rest
  ⟨t.resetEvent, step_reset hi, resetEvent_inputs t, resetEvent_cmd t, resetEvent_busy t,
    resetEvent_done t, resetEvent_err t, resetEvent_busywr t, resetEvent_arg0 t, resetEvent_arg1 t,
    resetEvent_result t, resetEvent_errinfo t, resetEvent_doneIe t, resetEvent_pending t,
    resetEvent_irq t, memory_get?_nil, memory_get?_nil, resetEvent_ibufBytes t, resetEvent_obufBytes t⟩

end
